-- ==== Sys2Proof/Word.lean ====
section
/-! DEFINITION. The widths the spec gives its values (R7, R9 of spec/00_scope.md; R80 of spec/30_encoding.md).
Every value of the block is unsigned. -/

namespace Sys2Proof

/-- `Word32` of R9: a register, a table entry, an operand. -/
abbrev Word := BitVec 32

/-- `Byte` of R9: a byte of the output stream. -/
abbrev Byte := BitVec 8

/-- One command word, one transfer of the command port (R80). -/
abbrev CmdWord := BitVec 64

/-- The RSV field of a command word, bits 55:32 (R80). -/
abbrev Rsv := BitVec 24

end Sys2Proof
end

