-- ==== Sys2Proof/Syntax.lean ====
section
/-! DEFINITION. The commands: one constructor per row of spec/opcode_table.json (R83 of spec/30_encoding.md).
A command keeps its RSV and IMM fields as they were decoded (R88): "The validity of RSV and IMM is not part of
decoding". A command with a bad operand is therefore a term too, and running it takes E_OPERAND. Log entry 5. -/

namespace Sys2Proof

/-- The twenty commands, each with its RSV field and its IMM field (R80, R83, R88). -/
inductive Instr where
  -- control, spec/44_control.md
  | nop      (rsv : Rsv) (imm : Word)
  | srst     (rsv : Rsv) (imm : Word)
  | regRd    (rsv : Rsv) (imm : Word)
  -- CRC table, spec/40_crc_table.md
  | tblGen   (rsv : Rsv) (imm : Word)
  | tblRd    (rsv : Rsv) (imm : Word)
  -- CRC reduce, spec/41_crc_reduce.md
  | crcInit  (rsv : Rsv) (imm : Word)
  | crcByte  (rsv : Rsv) (imm : Word)
  | crcWord  (rsv : Rsv) (imm : Word)
  | crcFinal (rsv : Rsv) (imm : Word)
  -- PNG signature, spec/43_png_chunks.md
  | sig      (rsv : Rsv) (imm : Word)
  -- chunk framing, spec/42_chunk_framing.md
  | chLen    (rsv : Rsv) (imm : Word)
  | chType   (rsv : Rsv) (imm : Word)
  | chData   (rsv : Rsv) (imm : Word)
  | chDataw  (rsv : Rsv) (imm : Word)
  | chEnd    (rsv : Rsv) (imm : Word)
  -- IHDR parameters and fixed chunks, spec/43_png_chunks.md
  | setW     (rsv : Rsv) (imm : Word)
  | setH     (rsv : Rsv) (imm : Word)
  | setCt    (rsv : Rsv) (imm : Word)
  | chIhdr   (rsv : Rsv) (imm : Word)
  | chIend   (rsv : Rsv) (imm : Word)
  deriving DecidableEq, Repr

/-- The operand classes of R81: none, byte, word, selector. -/
inductive OpClass where
  | n | b | w | s
  deriving DecidableEq, Repr

end Sys2Proof
end

