-- ==== Sys2Proof/WellFormed.lean ====
section
/-! DEFINITION. The valid commands (R81, R82 of spec/30_encoding.md): RSV = 0 and an IMM legal for the class.
This is a predicate on the syntax; the machine makes its own check when it runs a command (R203), and
`Sys2Proof.Laws.OperandCheck` says that the two agree. -/

namespace Sys2Proof

/-- Class N of R81: no operand, so IMM = 0; and RSV = 0 (R82). -/
def wfNone (rsv : Rsv) (imm : Word) : Bool := rsv == 0#24 && imm == 0#32

/-- Class B of R81: one byte, so IMM[31:8] = 0; and RSV = 0 (R82). -/
def wfByte (rsv : Rsv) (imm : Word) : Bool := rsv == 0#24 && decide (imm.toNat < 256)

/-- Class W of R81: any IMM; and RSV = 0 (R82). -/
def wfWord (rsv : Rsv) (_imm : Word) : Bool := rsv == 0#24

/-- Class S of R81: a selector 0 to 11; and RSV = 0 (R82). -/
def wfSel (rsv : Rsv) (imm : Word) : Bool := rsv == 0#24 && decide (imm.toNat ≤ 11)

/-- The commands the block performs when their state conditions hold (R81, R82, classes of R83). -/
def WellFormed : Instr → Bool
  | .nop rsv imm => wfNone rsv imm
  | .srst rsv imm => wfNone rsv imm
  | .regRd rsv imm => wfSel rsv imm
  | .tblGen rsv imm => wfNone rsv imm
  | .tblRd rsv imm => wfByte rsv imm
  | .crcInit rsv imm => wfNone rsv imm
  | .crcByte rsv imm => wfByte rsv imm
  | .crcWord rsv imm => wfWord rsv imm
  | .crcFinal rsv imm => wfNone rsv imm
  | .sig rsv imm => wfNone rsv imm
  | .chLen rsv imm => wfWord rsv imm
  | .chType rsv imm => wfWord rsv imm
  | .chData rsv imm => wfByte rsv imm
  | .chDataw rsv imm => wfWord rsv imm
  | .chEnd rsv imm => wfNone rsv imm
  | .setW rsv imm => wfWord rsv imm
  | .setH rsv imm => wfWord rsv imm
  | .setCt rsv imm => wfByte rsv imm
  | .chIhdr rsv imm => wfNone rsv imm
  | .chIend rsv imm => wfNone rsv imm

end Sys2Proof
end

