-- ==== Sys2Proof/Decode.lean ====
section
/-! DEFINITION. Decoding a command word (R80, R83, R84, R88 of spec/30_encoding.md) and encoding a command. -/

namespace Sys2Proof

/-- OP = w[63:56] (R80). -/
def opField (w : CmdWord) : BitVec 8 := w.extractLsb' 56 8

/-- RSV = w[55:32] (R80). -/
def rsvField (w : CmdWord) : Rsv := w.extractLsb' 32 24

/-- IMM = w[31:0] (R80). -/
def immField (w : CmdWord) : Word := w.extractLsb' 0 32

/-- Why a word is no command: its opcode is not assigned (R84). -/
inductive DecodeError where
  | illegalOpcode (op : BitVec 8)
  deriving DecidableEq, Repr

/-- The opcode map R83 on the three fields of a word: OP alone selects the command, RSV and IMM are handed on
unchecked (R88). Every other OP is illegal (R84). -/
def decodeFields (op : BitVec 8) (rsv : Rsv) (imm : Word) : Except DecodeError Instr :=
  match op.toNat with
  | 0x00 => .ok (.nop rsv imm)
  | 0x01 => .ok (.srst rsv imm)
  | 0x02 => .ok (.regRd rsv imm)
  | 0x10 => .ok (.tblGen rsv imm)
  | 0x11 => .ok (.tblRd rsv imm)
  | 0x20 => .ok (.crcInit rsv imm)
  | 0x21 => .ok (.crcByte rsv imm)
  | 0x22 => .ok (.crcWord rsv imm)
  | 0x23 => .ok (.crcFinal rsv imm)
  | 0x30 => .ok (.sig rsv imm)
  | 0x31 => .ok (.chLen rsv imm)
  | 0x32 => .ok (.chType rsv imm)
  | 0x33 => .ok (.chData rsv imm)
  | 0x34 => .ok (.chDataw rsv imm)
  | 0x35 => .ok (.chEnd rsv imm)
  | 0x38 => .ok (.setW rsv imm)
  | 0x39 => .ok (.setH rsv imm)
  | 0x3A => .ok (.setCt rsv imm)
  | 0x3B => .ok (.chIhdr rsv imm)
  | 0x3C => .ok (.chIend rsv imm)
  | _ => .error (.illegalOpcode op)

/-- `decode` of R88: total on every word. -/
def decode (w : CmdWord) : Except DecodeError Instr := decodeFields (opField w) (rsvField w) (immField w)

/-- A command word from its three fields (R80). -/
def commandWord (op : BitVec 8) (rsv : Rsv) (imm : Word) : CmdWord := op ++ rsv ++ imm

/-- The opcode of a command (the OP column of R83). -/
def Instr.opcode : Instr → BitVec 8
  | .nop _ _ => 0x00#8
  | .srst _ _ => 0x01#8
  | .regRd _ _ => 0x02#8
  | .tblGen _ _ => 0x10#8
  | .tblRd _ _ => 0x11#8
  | .crcInit _ _ => 0x20#8
  | .crcByte _ _ => 0x21#8
  | .crcWord _ _ => 0x22#8
  | .crcFinal _ _ => 0x23#8
  | .sig _ _ => 0x30#8
  | .chLen _ _ => 0x31#8
  | .chType _ _ => 0x32#8
  | .chData _ _ => 0x33#8
  | .chDataw _ _ => 0x34#8
  | .chEnd _ _ => 0x35#8
  | .setW _ _ => 0x38#8
  | .setH _ _ => 0x39#8
  | .setCt _ _ => 0x3A#8
  | .chIhdr _ _ => 0x3B#8
  | .chIend _ _ => 0x3C#8

/-- The operand class of a command, `class(op)` of R88 (the class column of R83). -/
def Instr.opClass : Instr → OpClass
  | .nop _ _ | .srst _ _ | .tblGen _ _ | .crcInit _ _ | .crcFinal _ _ | .sig _ _ | .chEnd _ _ | .chIhdr _ _
  | .chIend _ _ => .n
  | .tblRd _ _ | .crcByte _ _ | .chData _ _ | .setCt _ _ => .b
  | .crcWord _ _ | .chLen _ _ | .chType _ _ | .chDataw _ _ | .setW _ _ | .setH _ _ => .w
  | .regRd _ _ => .s

/-- The two operand fields of a command, RSV and IMM (R88). -/
def Instr.fields : Instr → Rsv × Word
  | .nop rsv imm | .srst rsv imm | .regRd rsv imm | .tblGen rsv imm | .tblRd rsv imm
  | .crcInit rsv imm | .crcByte rsv imm | .crcWord rsv imm | .crcFinal rsv imm | .sig rsv imm
  | .chLen rsv imm | .chType rsv imm | .chData rsv imm | .chDataw rsv imm | .chEnd rsv imm
  | .setW rsv imm | .setH rsv imm | .setCt rsv imm | .chIhdr rsv imm | .chIend rsv imm => (rsv, imm)

/-- The word of a command (R80, R83): the word the host wrote, whole, also when its operand is bad. -/
def encode (i : Instr) : CmdWord := commandWord i.opcode i.fields.1 i.fields.2

/-- The command the decoder reads from a row of spec/opcode_table.json: `nbits` bits with bit 0 the least
significant, the bits above them 0. A command is one 64-bit transfer with no byte order (R65), so nothing is
rearranged; a row longer than 64 bits is no command (R86). Log entry 16. -/
def decodeTableWord (nbits w : Nat) : Option Instr :=
  if nbits ≤ 64 then (decode (BitVec.ofNat 64 (w % 2 ^ nbits))).toOption else none

end Sys2Proof
end

