-- ==== Sys2Proof/Config.lean ====
section
/-! DEFINITION. What the spec leaves open: one free value, POWER_ON_TABLE (R8 of spec/00_scope.md, U1 of
spec/93_implementation_defined.md). -/

namespace Sys2Proof.Config

/-- POWER_ON_TABLE, entry by entry: the content of the CRC table after power-on, "a draw under no law" (R8).
It has no body here, so nothing can lean on a value of it. Log entry 3, DESIGN CHOICE of the form, safe. -/
opaque powerOnTable : Nat → Word

end Sys2Proof.Config
end

