-- ==== Sys2Proof/Machine/Constants.lean ====
section
/-! DEFINITION. The hardwired constants of R38 (spec/10_state.md). No command and no reset changes them. -/

namespace Sys2Proof.Machine

/-- POLY, the reflected polynomial. -/
def poly : Word := 0xEDB88320#32

/-- INIT, the accumulator's start value. -/
def initAcc : Word := 0xFFFFFFFF#32

/-- XOROUT, the final XOR. -/
def xorOut : Word := 0xFFFFFFFF#32

/-- SIGNATURE, the eight bytes of the PNG file signature. -/
def signature : List Byte :=
  [0x89#8, 0x50#8, 0x4E#8, 0x47#8, 0x0D#8, 0x0A#8, 0x1A#8, 0x0A#8]

/-- IHDR_TYPE, "IHDR". -/
def ihdrType : Word := 0x49484452#32

/-- IEND_TYPE, "IEND". -/
def iendType : Word := 0x49454E44#32

/-- IHDR_LEN, the length of the IHDR data. -/
def ihdrLen : Word := 13#32

/-- BIT_DEPTH of the IHDR data. -/
def bitDepth : Byte := 8#8

/-- COMPRESSION_METHOD of the IHDR data. -/
def compressionMethod : Byte := 0#8

/-- FILTER_METHOD of the IHDR data. -/
def filterMethod : Byte := 0#8

/-- INTERLACE_METHOD of the IHDR data. -/
def interlaceMethod : Byte := 0#8

end Sys2Proof.Machine
end

