-- ==== Sys2Proof/Machine/State.lean ====
section
/-! DEFINITION. The state of the block, R20 to R37 of spec/10_state.md, and its state after power-on, R47 and R233.
One field is the model's own: `hostActs`, what the host does next. -/

namespace Sys2Proof.Machine

/-- The serializer state SST (R26). The value 3 of its two bits "is never held" (U8), so there are three values. -/
inductive Sst where
  /-- 0: no chunk is open. -/
  | idle
  /-- 1: the length field is emitted, the type is expected. -/
  | type
  /-- 2: the type is emitted, data or the end of the chunk is expected. -/
  | data
  deriving DecidableEq, Repr

/-- The causes of a fault, R200 of spec/60_exceptions.md. Taking one is a NEXT state of the machine (R204). -/
inductive FaultCode where
  | opcode | operand | state | table | overrun | underrun | ihdr
  deriving DecidableEq, Repr

/-- What the host does to the block (R216): it offers a word at the command port, asserts the reset input, or does
neither for one step of the block. Reading a port changes nothing (R69) and takes no step. Log entries 1 and 9,
DESIGN CHOICE, safe. -/
inductive HostAction where
  | offer (word : CmdWord)
  | resetInput
  | idle
  deriving DecidableEq, Repr

/-- The CRC lookup table's storage: 256 entries of 32 bits (R22). -/
abbrev Table := Vector Word 256

/-- The block's state, field by field the record of R20; each docstring names the field's rule. -/
structure State where
  /-- T (R22). -/
  t : Table
  /-- TV, table valid (R21). -/
  tv : Bool
  /-- BUSY, the generator runs (R23). -/
  busy : Bool
  /-- GEN_N, 0 to 256 (R23). -/
  genN : Nat
  /-- GEN_K, 0 to 7 (R23). -/
  genK : Nat
  /-- GEN_C (R23). -/
  genC : Word
  /-- ACC (R24). -/
  acc : Word
  /-- RESULT (R25). -/
  result : Word
  /-- SST (R26). -/
  sst : Sst
  /-- LEN (R27). -/
  len : Word
  /-- REM (R28). -/
  rem : Word
  /-- TYPE, first wire byte in bits 31:24 (R29). -/
  chunkType : Word
  /-- W (R30). -/
  w : Word
  /-- H (R31). -/
  h : Word
  /-- CT (R32). -/
  ct : Byte
  /-- FAULT (R33). -/
  fault : Bool
  /-- ERR, 4 bits (R34). -/
  err : BitVec 4
  /-- ERRHI (R35). -/
  errHi : Word
  /-- ERRLO (R36). -/
  errLo : Word
  /-- OUTCNT (R37). -/
  outCnt : Word
  /-- OUT, the bytes emitted since power-on, oldest first (R61 of spec/20_memory.md). -/
  out : List Byte
  /-- The host's next actions, next first. The MODEL's own field: the spec's host stands outside the block
  (R87 of spec/30_encoding.md). Log entry 1. -/
  hostActs : List HostAction
  deriving DecidableEq, Repr

/-- Reasons for the machine to STOP. There is none: every fault of R200 is a state the block goes on from, and
R201 excludes every other. Safe: nothing is stopped. -/
inductive Fault where
  deriving DecidableEq, Repr

/-- Reasons to refuse. No meaning raises one. -/
inductive Refusal where
  /-- Raised by an arm of `exec` that has no meaning yet; no arm is left. It would be safe: the run ends. -/
  | notModelled (mnemonic : String)
  deriving DecidableEq, Repr

/-- What a command answers. -/
abbrev Result := Host.Outcome State Fault Refusal

/-- The table after power-on: the draw POWER_ON_TABLE (R8, R233). -/
def powerOnTable : Table := Vector.ofFn fun i : Fin 256 => Config.powerOnTable i.val

/-- The block's first state (R233 of spec/70_reset_and_hazards.md): the reset values of R47 over POWER_ON_TABLE and
an empty output stream. No host action is pending; a program is loaded from outside (log entry 2). -/
def State.reset : State where
  t := powerOnTable
  tv := false
  busy := false
  genN := 0
  genK := 0
  genC := 0#32
  acc := initAcc
  result := 0#32
  sst := .idle
  len := 0#32
  rem := 0#32
  chunkType := 0#32
  w := 0#32
  h := 0#32
  ct := 0#8
  fault := false
  err := 0#4
  errHi := 0#32
  errLo := 0#32
  outCnt := 0#32
  out := []
  hostActs := []

end Sys2Proof.Machine
end

