-- ==== Sys2Proof/Machine/Flags.lean ====
section
/-! DEFINITION. The numbers of the coded fields and the STATUS view (R26, R39, R40, R41 of spec/10_state.md, R200 of
spec/60_exceptions.md). -/

namespace Sys2Proof.Machine

/-- The number of a serializer state, STATUS bits 9:8 (R26). -/
def Sst.bits : Sst → BitVec 2
  | .idle => 0#2
  | .type => 1#2
  | .data => 2#2

/-- The number of a fault cause, ERR (R200). -/
def FaultCode.bits : FaultCode → BitVec 4
  | .opcode => 1#4
  | .operand => 2#4
  | .state => 3#4
  | .table => 4#4
  | .overrun => 5#4
  | .underrun => 6#4
  | .ihdr => 7#4

/-- One bit as a 32-bit value, `zext_32` of R39. -/
def zextBool (b : Bool) : Word := (BitVec.ofBool b).setWidth 32

/-- STATUS (R39): BUSY at bit 0, TBL_VALID at 1, FAULT at 2, ERR at 7:4, SST at 9:8, every other bit 0. -/
def statusWord (s : State) : Word :=
  zextBool s.busy ||| (zextBool s.tv <<< 1) ||| (zextBool s.fault <<< 2) ||| (s.err.setWidth 32 <<< 4)
    ||| (s.sst.bits.setWidth 32 <<< 8)

/-- What a read of the status port returns, at any time and with no side effect (R40). -/
def statusPort (s : State) : Word := statusWord s

/-- What a read of the result port returns, at any time and with no side effect (R41). -/
def resultPort (s : State) : Word := s.result

/-- The command port is ready exactly when BUSY = 0 (R87 of spec/30_encoding.md, R235 of
spec/70_reset_and_hazards.md). -/
def portReady (s : State) : Bool := !s.busy

end Sys2Proof.Machine
end

