-- ==== Sys2Proof/Machine/Operands.lean ====
section
/-! DEFINITION. Operands: the classes and their checks (R81, R82 of spec/30_encoding.md), the operand values, the byte
order of a word that stands for bytes (R65 of spec/20_memory.md), and the register view of REG_RD (R42 of
spec/10_state.md). -/

namespace Sys2Proof.Machine

/-- Whether IMM is legal for its class (R81). -/
def immLegal (c : OpClass) (imm : Word) : Bool :=
  match c with
  | .n => imm == 0#32
  | .b => imm.extractLsb' 8 24 == 0#24
  | .w => true
  | .s => decide (imm.toNat ≤ 11)

/-- The operand check of R203: RSV = 0 (R82) and a legal IMM (R81). -/
def operandLegal (c : OpClass) (rsv : Rsv) (imm : Word) : Bool := rsv == 0#24 && immLegal c imm

/-- The byte operand `b = IMM[7:0]` of class B (R81). -/
def byteOperand (imm : Word) : Byte := imm.extractLsb' 0 8

/-- `be32` of R11: the four bytes of a word, most significant first (R65). -/
def be32 (v : Word) : List Byte :=
  [v.extractLsb' 24 8, v.extractLsb' 16 8, v.extractLsb' 8 8, v.extractLsb' 0 8]

/-- `regview(sel)`, the values REG_RD can read (R42); no value for a selector above 11
(log entry 17). -/
def regview (sel : Word) (s : State) : Option Word :=
  match sel.toNat with
  | 0 => some s.acc
  | 1 => some s.len
  | 2 => some s.rem
  | 3 => some s.chunkType
  | 4 => some s.w
  | 5 => some s.h
  | 6 => some (s.ct.setWidth 32)
  | 7 => some poly
  | 8 => some s.errHi
  | 9 => some s.errLo
  | 10 => some s.outCnt
  | 11 => some (statusWord s)
  | _ => none

end Sys2Proof.Machine
end

