-- ==== Sys2Proof/Machine/Ops.lean ====
section
/-! DEFINITION. The shared operations: the CRC table and its generator (spec/40_crc_table.md), the reduce step
(spec/41_crc_reduce.md), the output stream (spec/20_memory.md), reset (spec/70_reset_and_hazards.md), taking a fault
and the checks before a command's effects (spec/60_exceptions.md). -/

namespace Sys2Proof.Machine

/-! ### The CRC table -/

/-- One generator iteration: `if c[0] = 1 then POLY ^ (c >> 1) else c >> 1` (R100). -/
def bitstep (c : Word) : Word := if c.getLsbD 0 then poly ^^^ (c >>> 1) else c >>> 1

/-- `bitstep` k times. -/
def bitsteps : Nat → Word → Word
  | 0, c => c
  | k + 1, c => bitsteps k (bitstep c)

/-- `gen_entry(n)`, the value entry n must hold (R100). -/
def genEntry (n : Nat) : Word := bitsteps 8 (BitVec.ofNat 32 n)

/-- The valid table: `T[n] = gen_entry(n)` for every n (R100, R103). -/
def genTable : Table := Vector.ofFn fun i : Fin 256 => genEntry i.val

/-- Read entry i; the index is a byte, so no access falls outside 0 to 255 (R63). -/
def tableRead (t : Table) (i : Byte) : Word := t[i.toNat]'i.isLt

/-- Write entry n. The generator alone writes, and n is below 256 whenever it runs (log entry 8). -/
def tableWrite (t : Table) (n : Nat) (v : Word) : Table := t.setIfInBounds n v

/-- TBL_GEN's effect (R101). -/
def startGen (s : State) : State :=
  { s with tv := false, busy := true, genN := 0, genK := 0, genC := 0#32 }

/-- `complete_gen` (R103): BUSY clears, TV sets, GEN_C clears; GEN_N stays 256. -/
def completeGen (s : State) : State := { s with busy := false, tv := true, genC := 0#32 }

/-- `step_gen` (R102), the generator's iteration step, taken while BUSY = 1. -/
def stepGen (s : State) : State :=
  let c := bitstep s.genC
  if s.genK = 7 then
    let s₁ := { s with t := tableWrite s.t s.genN c, genN := s.genN + 1, genK := 0 }
    if s₁.genN = 256 then completeGen s₁ else { s₁ with genC := BitVec.ofNat 32 s₁.genN }
  else
    { s with genK := s.genK + 1, genC := c }

/-! ### The reduce step -/

/-- `upd(a, b)` (R120): `T[(a ^ zext_32(b)) & 0xFF] ^ (a >> 8)`. -/
def upd (t : Table) (a : Word) (b : Byte) : Word :=
  tableRead t (((a ^^^ b.setWidth 32) &&& 0xFF#32).setWidth 8) ^^^ (a >>> 8)

/-- `upd*(a, bs)` (R120): the fold of `upd` over a byte sequence. -/
def updStar (t : Table) : Word → List Byte → Word
  | a, [] => a
  | a, b :: bs => updStar t (upd t a b) bs

/-- `checksum(d)` (R121), over the valid table. -/
def checksum (d : List Byte) : Word := updStar genTable initAcc d ^^^ xorOut

/-! ### The output stream -/

/-- `Emit(bs)` (R62): each byte goes to the end of OUT and adds 1 to OUTCNT modulo 2^32. The sink always accepts
(R61, R239); log entry 4. -/
def emit : List Byte → State → State
  | [], s => s
  | b :: bs, s => emit bs { s with out := s.out ++ [b], outCnt := s.outCnt + 1#32 }

/-- The IHDR data, 13 bytes (R174). -/
def ihdrData (s : State) : List Byte :=
  be32 s.w ++ be32 s.h ++ [bitDepth, s.ct, compressionMethod, filterMethod, interlaceMethod]

/-! ### Reset -/

/-- `reset_state()` (R231, values R47): every register takes its reset value; T and OUT stay. The host's pending
actions are the host's and stay too. Also after a reset during generation T stays as it stands (R232; log entry 10). -/
def resetState (s : State) : State where
  t := s.t
  tv := false
  busy := false
  genN := 0
  genK := 0
  genC := 0#32
  acc := initAcc
  result := 0#32
  sst := .idle
  len := 0#32
  rem := 0#32
  chunkType := 0#32
  w := 0#32
  h := 0#32
  ct := 0#8
  fault := false
  err := 0#4
  errHi := 0#32
  errLo := 0#32
  outCnt := 0#32
  out := s.out
  hostActs := s.hostActs

/-! ### Taking a fault, and the checks of a command -/

/-- `raise Fault(code)` for the command word `word` (R204). Nothing else changes (R205). There is no handler and no
return: only a reset leaves the fault state (R207), by `resetState`. -/
def raiseFault (code : FaultCode) (word : CmdWord) (s : State) : State :=
  { s with fault := true, err := code.bits, errHi := word.extractLsb' 32 32, errLo := word.extractLsb' 0 32 }

/-- A row of the precondition table R202: the operand class, the serializer state required, whether TV = 1 is
required. -/
structure Needs where
  opClass : OpClass
  sst : Option Sst
  table : Bool
  deriving DecidableEq, Repr

/-- The first failing check, in the fixed order of R203: operand, state, table, then the command's own further
check. -/
def firstFailure (n : Needs) (rsv : Rsv) (imm : Word) (further : State → Option FaultCode) (s : State) :
    Option FaultCode :=
  if operandLegal n.opClass rsv imm = false then some .operand
  else if n.sst.isSome && n.sst != some s.sst then some .state
  else if n.table && !s.tv then some .table
  else further s

/-- The command has no check beyond R202's class, SST and TV columns. -/
def noFurther (_ : State) : Option FaultCode := none

/-- CH_DATA and CH_DATAW need REM >= k (R202). -/
def needsRem (k : Nat) (s : State) : Option FaultCode := if s.rem.toNat < k then some .overrun else none

/-- CH_END needs REM = 0 (R202). -/
def needsRemZero (s : State) : Option FaultCode := if s.rem = 0#32 then none else some .underrun

/-- CH_IHDR needs W != 0, H != 0 and CT in {0, 2} (R202). -/
def needsIhdrFields (s : State) : Option FaultCode :=
  if s.w = 0#32 ∨ s.h = 0#32 ∨ (s.ct ≠ 0#8 ∧ s.ct ≠ 2#8) then some .ihdr else none

/-- Run a command that the fault state discards (R206): with FAULT = 1 nothing happens; else the checks of R203
decide between a fault (R204) and the effects `perform`. `i` is the command, kept for ERRHI and ERRLO. -/
def runGuarded (i : Instr) (n : Needs) (further : State → Option FaultCode) (perform : State → State)
    (s : State) : Result :=
  if s.fault then .next s
  else
    match firstFailure n i.fields.1 i.fields.2 further s with
    | some code => .next (raiseFault code (encode i) s)
    | none => .next (perform s)

/-- Run a command that is performed in the fault state too, NOP, SRST or REG_RD (R206): its one check is the operand
check; where that fails, the command faults with FAULT = 0 (R203) and is discarded with FAULT = 1. -/
def runAlways (i : Instr) (c : OpClass) (perform : State → State) (s : State) : Result :=
  if operandLegal c i.fields.1 i.fields.2 then .next (perform s)
  else if s.fault then .next s
  else .next (raiseFault .operand (encode i) s)

/-- A word with an unassigned opcode (R84): E_OPCODE whatever its RSV and IMM, or discarded with FAULT = 1 (R206). -/
def runIllegal (word : CmdWord) (s : State) : Result :=
  if s.fault then .next s else .next (raiseFault .opcode word s)

end Sys2Proof.Machine
end

