-- ==== Sys2Proof/Machine/ChunkFraming.lean ====
section
/-! DEFINITION. The generic chunk framer, spec/42_chunk_framing.md. -/

namespace Sys2Proof.Machine

/-- CH_LEN's effect (R142). -/
def openChunk (n : Word) (s : State) : State :=
  let s := emit (be32 n) s
  { s with len := n, rem := n, sst := .type }

/-- CH_LEN (R142): emits the length field and opens the chunk. Every length is accepted (R149). -/
def execChLen (rsv : Rsv) (imm : Word) (s : State) : Result :=
  runGuarded (.chLen rsv imm) ⟨.w, some .idle, true⟩ noFurther (openChunk imm) s

/-- CH_TYPE's effect (R143). -/
def putType (t : Word) (s : State) : State :=
  let s := emit (be32 t) s
  { s with chunkType := t, acc := updStar s.t initAcc (be32 t), sst := .data }

/-- CH_TYPE (R143): emits the type and restarts the CRC over it. No type byte is checked (R148). -/
def execChType (rsv : Rsv) (imm : Word) (s : State) : Result :=
  runGuarded (.chType rsv imm) ⟨.w, some .type, true⟩ noFurther (putType imm) s

/-- CH_DATA's effect (R144). -/
def putByte (b : Byte) (s : State) : State :=
  let s := emit [b] s
  { s with acc := upd s.t s.acc b, rem := s.rem - 1#32 }

/-- CH_DATA (R144): emits one data byte and folds it into the CRC. -/
def execChData (rsv : Rsv) (imm : Word) (s : State) : Result :=
  runGuarded (.chData rsv imm) ⟨.b, some .data, false⟩ (needsRem 1) (putByte (byteOperand imm)) s

/-- CH_DATAW's effect (R145). -/
def putWord (v : Word) (s : State) : State :=
  let s := emit (be32 v) s
  { s with acc := updStar s.t s.acc (be32 v), rem := s.rem - 4#32 }

/-- CH_DATAW (R145): emits four data bytes, v[31:24] first, and folds them into the CRC. -/
def execChDataw (rsv : Rsv) (imm : Word) (s : State) : Result :=
  runGuarded (.chDataw rsv imm) ⟨.w, some .data, false⟩ (needsRem 4) (putWord imm) s

/-- CH_END's effect (R146); ACC keeps the value before the final XOR. -/
def closeChunk (s : State) : State :=
  let c := s.acc ^^^ xorOut
  let s := emit (be32 c) s
  { s with result := c, sst := .idle }

/-- CH_END (R146): emits the CRC field and closes the chunk. -/
def execChEnd (rsv : Rsv) (imm : Word) (s : State) : Result :=
  runGuarded (.chEnd rsv imm) ⟨.n, some .data, false⟩ needsRemZero closeChunk s

end Sys2Proof.Machine
end

