-- ==== Sys2Proof/Machine/Control.lean ====
section
/-! DEFINITION. The control commands, spec/44_control.md. -/

namespace Sys2Proof.Machine

/-- NOP (R190): no effect. -/
def execNop (rsv : Rsv) (imm : Word) (s : State) : Result :=
  runAlways (.nop rsv imm) .n (fun s => s) s

/-- SRST (R191): `reset_state()`. -/
def execSrst (rsv : Rsv) (imm : Word) (s : State) : Result :=
  runAlways (.srst rsv imm) .n resetState s

/-- REG_RD's effect (R192): RESULT takes the register view; the operand check leaves no selector without one. -/
def readRegister (sel : Word) (s : State) : State :=
  match regview sel s with
  | some v => { s with result := v }
  | none => s

/-- REG_RD (R192): `RESULT <- regview(sel)`. -/
def execRegRd (rsv : Rsv) (imm : Word) (s : State) : Result :=
  runAlways (.regRd rsv imm) .s (readRegister imm) s

end Sys2Proof.Machine
end

