-- ==== Sys2Proof/Machine/CrcReduce.lean ====
section
/-! DEFINITION. The CRC reduce commands, spec/41_crc_reduce.md. -/

namespace Sys2Proof.Machine

/-- CRC_INIT (R122): `ACC <- INIT`. -/
def execCrcInit (rsv : Rsv) (imm : Word) (s : State) : Result :=
  runGuarded (.crcInit rsv imm) ⟨.n, some .idle, false⟩ noFurther (fun s => { s with acc := initAcc }) s

/-- CRC_BYTE (R123): `ACC <- upd(ACC, b)`. -/
def execCrcByte (rsv : Rsv) (imm : Word) (s : State) : Result :=
  runGuarded (.crcByte rsv imm) ⟨.b, some .idle, true⟩ noFurther
    (fun s => { s with acc := upd s.t s.acc (byteOperand imm) }) s

/-- CRC_WORD (R124): `ACC <- upd*(ACC, be32(v))`. -/
def execCrcWord (rsv : Rsv) (imm : Word) (s : State) : Result :=
  runGuarded (.crcWord rsv imm) ⟨.w, some .idle, true⟩ noFurther
    (fun s => { s with acc := updStar s.t s.acc (be32 imm) }) s

/-- CRC_FINAL (R125): `RESULT <- ACC ^ XOROUT`; ACC stays. -/
def execCrcFinal (rsv : Rsv) (imm : Word) (s : State) : Result :=
  runGuarded (.crcFinal rsv imm) ⟨.n, none, false⟩ noFurther
    (fun s => { s with result := s.acc ^^^ xorOut }) s

end Sys2Proof.Machine
end

