-- ==== Sys2Proof/Machine/CrcTable.lean ====
section
/-! DEFINITION. The table generator's commands, spec/40_crc_table.md. -/

namespace Sys2Proof.Machine

/-- TBL_GEN (R101): starts generation; the 2048 generator steps are the block's own (R102). -/
def execTblGen (rsv : Rsv) (imm : Word) (s : State) : Result :=
  runGuarded (.tblGen rsv imm) ⟨.n, some .idle, false⟩ noFurther startGen s

/-- TBL_RD (R105): `RESULT <- T[i]`. -/
def execTblRd (rsv : Rsv) (imm : Word) (s : State) : Result :=
  runGuarded (.tblRd rsv imm) ⟨.b, none, true⟩ noFurther
    (fun s => { s with result := tableRead s.t (byteOperand imm) }) s

end Sys2Proof.Machine
end

