-- ==== Sys2Proof/Machine/PngChunks.lean ====
section
/-! DEFINITION. The PNG-specific emitters, spec/43_png_chunks.md. -/

namespace Sys2Proof.Machine

/-- SIG (R170): emits the eight signature bytes. TV is not checked. -/
def execSig (rsv : Rsv) (imm : Word) (s : State) : Result :=
  runGuarded (.sig rsv imm) ⟨.n, some .idle, false⟩ noFurther (emit signature) s

/-- SET_W (R171): `W <- v`, any value. -/
def execSetW (rsv : Rsv) (imm : Word) (s : State) : Result :=
  runGuarded (.setW rsv imm) ⟨.w, none, false⟩ noFurther (fun s => { s with w := imm }) s

/-- SET_H (R172): `H <- v`, any value. -/
def execSetH (rsv : Rsv) (imm : Word) (s : State) : Result :=
  runGuarded (.setH rsv imm) ⟨.w, none, false⟩ noFurther (fun s => { s with h := imm }) s

/-- SET_CT (R173): `CT <- b`, any byte. -/
def execSetCt (rsv : Rsv) (imm : Word) (s : State) : Result :=
  runGuarded (.setCt rsv imm) ⟨.b, none, false⟩ noFurther (fun s => { s with ct := byteOperand imm }) s

/-- The effect CH_IHDR and CH_IEND share, flattened as R175 and R176 write it: a whole chunk of length `n`, type `ty`
and data `d`, with SST at IDLE before and after. -/
def emitChunk (n ty : Word) (d : List Byte) (s : State) : State :=
  let s := emit (be32 n ++ be32 ty ++ d) s
  let s := { s with acc := updStar s.t initAcc (be32 ty ++ d) }
  let c := s.acc ^^^ xorOut
  let s := emit (be32 c) s
  { s with len := n, rem := 0#32, chunkType := ty, result := c }

/-- CH_IHDR (R175): the complete IHDR chunk from W, H and CT. -/
def execChIhdr (rsv : Rsv) (imm : Word) (s : State) : Result :=
  runGuarded (.chIhdr rsv imm) ⟨.n, some .idle, true⟩ needsIhdrFields
    (fun s => emitChunk ihdrLen ihdrType (ihdrData s) s) s

/-- CH_IEND (R176): the complete, empty IEND chunk. -/
def execChIend (rsv : Rsv) (imm : Word) (s : State) : Result :=
  runGuarded (.chIend rsv imm) ⟨.n, some .idle, true⟩ noFurther (emitChunk 0#32 iendType []) s

end Sys2Proof.Machine
end

