-- ==== Sys2Proof/Machine/Dispatch.lean ====
section
/-! DEFINITION. One arm per command, each one call of its meaning. -/

namespace Sys2Proof.Machine

/-- What a command does, once the port has accepted it (R203, R206 of spec/60_exceptions.md). -/
def exec (i : Instr) (s : State) : Host.Outcome State Fault Refusal :=
  match i with
  | .nop rsv imm => Sys2Proof.Machine.execNop rsv imm s
  | .srst rsv imm => Sys2Proof.Machine.execSrst rsv imm s
  | .regRd rsv imm => Sys2Proof.Machine.execRegRd rsv imm s
  | .tblGen rsv imm => Sys2Proof.Machine.execTblGen rsv imm s
  | .tblRd rsv imm => Sys2Proof.Machine.execTblRd rsv imm s
  | .crcInit rsv imm => Sys2Proof.Machine.execCrcInit rsv imm s
  | .crcByte rsv imm => Sys2Proof.Machine.execCrcByte rsv imm s
  | .crcWord rsv imm => Sys2Proof.Machine.execCrcWord rsv imm s
  | .crcFinal rsv imm => Sys2Proof.Machine.execCrcFinal rsv imm s
  | .sig rsv imm => Sys2Proof.Machine.execSig rsv imm s
  | .chLen rsv imm => Sys2Proof.Machine.execChLen rsv imm s
  | .chType rsv imm => Sys2Proof.Machine.execChType rsv imm s
  | .chData rsv imm => Sys2Proof.Machine.execChData rsv imm s
  | .chDataw rsv imm => Sys2Proof.Machine.execChDataw rsv imm s
  | .chEnd rsv imm => Sys2Proof.Machine.execChEnd rsv imm s
  | .setW rsv imm => Sys2Proof.Machine.execSetW rsv imm s
  | .setH rsv imm => Sys2Proof.Machine.execSetH rsv imm s
  | .setCt rsv imm => Sys2Proof.Machine.execSetCt rsv imm s
  | .chIhdr rsv imm => Sys2Proof.Machine.execChIhdr rsv imm s
  | .chIend rsv imm => Sys2Proof.Machine.execChIend rsv imm s

end Sys2Proof.Machine
end

