-- ==== Sys2Proof/Machine/Port.lean ====
section
/-! DEFINITION. What the block's next step is: the reset input, a generator iteration, an accepted command, or none
(R87 of spec/30_encoding.md, R102, R215, R230, R235). -/

namespace Sys2Proof.Machine

/-- The four kinds of step, each with the state it starts from. -/
inductive Activity where
  /-- The reset input is asserted (R230). -/
  | reset (s : State)
  /-- BUSY = 1: one generator iteration (R102). -/
  | generate (s : State)
  /-- The port is ready and takes the word (R87). -/
  | command (word : CmdWord) (s : State)
  /-- Nothing is offered and nothing runs: "the block holds its state unchanged" (R215). Log entry 15. -/
  | quiet (s : State)
  deriving DecidableEq, Repr

/-- Whether the block generates or stays quiet when the host does nothing to it. -/
def undisturbed (s : State) : Activity := if s.busy then .generate s else .quiet s

/-- The next step. The reset input comes first, at any time (R230, R232). An offered word is accepted exactly when the
port is ready (R87); while BUSY = 1 it stays offered and the generator steps (R235). Log entry 1. -/
def nextActivity (s : State) : Activity :=
  match s.hostActs with
  | [] => undisturbed s
  | .resetInput :: rest => .reset { s with hostActs := rest }
  | .idle :: rest => undisturbed { s with hostActs := rest }
  | .offer word :: rest => if portReady s then .command word { s with hostActs := rest } else .generate s

/-- Place a word where the next command is accepted: first among the host's actions, with the port ready. -/
def offerNext (word : CmdWord) (s : State) : State :=
  { s with busy := false, hostActs := .offer word :: s.hostActs }

end Sys2Proof.Machine
end

