-- ==== Sys2Proof/Machine/Step.lean ====
section
/-! DEFINITION. One step of the block (R12 of spec/00_scope.md, R66 of spec/20_memory.md): an accepted command, one
generator iteration, a reset, or nothing. -/

namespace Sys2Proof.Machine

/-- `execute(w)` of R203 for an accepted word: the decoded command, or the illegal opcode (R84). -/
def execute (word : CmdWord) (s : State) : Host.Outcome State Fault Refusal :=
  match decode word with
  | .ok i => exec i s
  | .error (.illegalOpcode _) => runIllegal word s

/-- One step. -/
def step (s : State) : Host.Outcome State Fault Refusal :=
  match nextActivity s with
  | .reset s' => .next (resetState s')
  | .generate s' => .next (stepGen s')
  | .command word s' => execute word s'
  | .quiet s' => .next s'

/-- The state whose very next step accepts and runs the word whose `nbits` bits are `w` (bits above them 0). The block
fetches nothing: a program comes from the host, so the word goes first among the host's actions, and the port is made
ready. Log entry 2. -/
def State.withFetchWord (s : State) (nbits w : Nat) : State :=
  offerNext (BitVec.ofNat 64 (w % 2 ^ nbits)) s

end Sys2Proof.Machine
end

