-- ==== Sys2Proof/Machine/Assembler.lean ====
section
/-! DEFINITION. The spec's assembler (R89) and its pseudo-instructions (R90), spec/30_encoding.md: what turns a line of
text into command words. It stands beside the machine: "syntax has no semantics of its own" (D28), and no step calls
it. R89 leaves lexical detail open; every point the model settles is in log entry 14 (DESIGN CHOICE) and named in the
docstring of the definition that settles it. -/

namespace Sys2Proof.Machine

/-- Why the assembler refuses a line. Which reason a line with several is refused for is log entry 14. -/
inductive AsmError where
  /-- No command or pseudo-instruction of that name. -/
  | unknownMnemonic
  /-- The operands do not have the number or the form the name takes. -/
  | wrongOperands
  /-- A number above the class's range (R89). -/
  | tooLarge
  /-- A quoted string that is not exactly four characters long (R89). -/
  | notFourCharacters
  /-- A quoted character with no ASCII code (log entry 14). -/
  | notAscii
  /-- A number or a quotation that cannot be read. -/
  | malformed
  deriving DecidableEq, Repr

/-- The operand forms of R89: a number, a quoted character, a quoted string. -/
inductive AsmOperand where
  | number (n : Nat)
  | char (c : Char)
  | text (cs : List Char)
  deriving DecidableEq, Repr

/-- A name and its operands. -/
structure AsmLine where
  name : String
  operands : List AsmOperand
  deriving DecidableEq, Repr

/-- The command a mnemonic stands for, from its IMM, and the operand class (R83). RSV has no syntax and "is always
emitted as 0" (R89). -/
def mnemonicOf (name : String) : Option (OpClass × (Word → Instr)) :=
  match name with
  | "NOP" => some (.n, .nop 0#24)
  | "SRST" => some (.n, .srst 0#24)
  | "REG_RD" => some (.s, .regRd 0#24)
  | "TBL_GEN" => some (.n, .tblGen 0#24)
  | "TBL_RD" => some (.b, .tblRd 0#24)
  | "CRC_INIT" => some (.n, .crcInit 0#24)
  | "CRC_BYTE" => some (.b, .crcByte 0#24)
  | "CRC_WORD" => some (.w, .crcWord 0#24)
  | "CRC_FINAL" => some (.n, .crcFinal 0#24)
  | "SIG" => some (.n, .sig 0#24)
  | "CH_LEN" => some (.w, .chLen 0#24)
  | "CH_TYPE" => some (.w, .chType 0#24)
  | "CH_DATA" => some (.b, .chData 0#24)
  | "CH_DATAW" => some (.w, .chDataw 0#24)
  | "CH_END" => some (.n, .chEnd 0#24)
  | "SET_W" => some (.w, .setW 0#24)
  | "SET_H" => some (.w, .setH 0#24)
  | "SET_CT" => some (.b, .setCt 0#24)
  | "CH_IHDR" => some (.n, .chIhdr 0#24)
  | "CH_IEND" => some (.n, .chIend 0#24)
  | _ => none

/-- A character's 8-bit ASCII code (R89). That a character from 128 up is refused is log entry 14. -/
def asciiCode (c : Char) : Except AsmError Nat := if c.toNat < 128 then .ok c.toNat else .error .notAscii

/-- A four-character string as a word, the first character in bits 31:24 (R89). -/
def asciiWord (cs : List Char) : Except AsmError Nat :=
  match cs with
  | [a, b, c, d] => do
      let a ← asciiCode a
      let b ← asciiCode b
      let c ← asciiCode c
      let d ← asciiCode d
      pure (((a * 256 + b) * 256 + c) * 256 + d)
  | _ => .error .notFourCharacters

/-- A number no larger than the class allows (R89). -/
def bounded (limit n : Nat) : Except AsmError Nat := if n ≤ limit then .ok n else .error .tooLarge

/-- IMM from the operands of a line, by operand class (R81, R89). -/
def assembleImm : OpClass → List AsmOperand → Except AsmError Nat
  | .n, [] => .ok 0
  | .b, [.number n] => bounded 0xFF n
  | .b, [.char c] => asciiCode c
  | .w, [.number n] => bounded 0xFFFFFFFF n
  | .w, [.text cs] => asciiWord cs
  | .s, [.number n] => bounded 11 n
  | _, _ => .error .wrongOperands

/-- One command from one line (R89). -/
def assembleCommand (line : AsmLine) : Except AsmError Instr :=
  match mnemonicOf line.name with
  | none => .error .unknownMnemonic
  | some (cls, mk) => (assembleImm cls line.operands).map fun imm => mk (BitVec.ofNat 32 imm)

/-- The exact expansions of the pseudo-instructions (R90); a line of any other name stands for itself. R90 lists at
least one byte for CRC_BYTES, CH_BYTES and PNG_IDAT; that the list may be empty is log entry 14. -/
def expand (line : AsmLine) : Except AsmError (List AsmLine) :=
  match line.name, line.operands with
  | "CHUNK", [n, .text tag] => .ok [⟨"CH_LEN", [n]⟩, ⟨"CH_TYPE", [.text tag]⟩]
  | "CRC_STR", [.text cs] => .ok (cs.map fun c => ⟨"CRC_BYTE", [.char c]⟩)
  | "CRC_BYTES", bs => .ok (bs.map fun b => ⟨"CRC_BYTE", [b]⟩)
  | "CH_BYTES", bs => .ok (bs.map fun b => ⟨"CH_DATA", [b]⟩)
  | "PNG_HEAD", [w, h, ct] =>
      .ok [⟨"SIG", []⟩, ⟨"SET_W", [w]⟩, ⟨"SET_H", [h]⟩, ⟨"SET_CT", [ct]⟩, ⟨"CH_IHDR", []⟩]
  | "PNG_IDAT", bs =>
      .ok ([⟨"CH_LEN", [.number bs.length]⟩, ⟨"CH_TYPE", [.text ['I', 'D', 'A', 'T']]⟩]
        ++ bs.map (fun b => ⟨"CH_DATA", [b]⟩) ++ [⟨"CH_END", []⟩])
  | "CHUNK", _ => .error .wrongOperands
  | "CRC_STR", _ => .error .wrongOperands
  | "PNG_HEAD", _ => .error .wrongOperands
  | _, _ => .ok [line]

/-- The commands of one line, a pseudo-instruction expanded. -/
def assemble (line : AsmLine) : Except AsmError (List Instr) := do
  (← expand line).mapM assembleCommand

/-! ### The text of a line (R89) -/

/-- Each character with whether it belongs to a quotation; `inString` says whether a string is open. DESIGN CHOICES of
log entry 14: an apostrophe, any one character and an apostrophe are one quoted character, the character being possibly
an apostrophe or a quotation mark itself; a string runs from a quotation mark to the next one, or to the end of the
text, and has no escape. -/
def markQuoted (inString : Bool) : List Char → List (Char × Bool)
  | [] => []
  | '\'' :: c :: '\'' :: cs =>
      if inString then ('\'', true) :: markQuoted true (c :: '\'' :: cs)
      else ('\'', true) :: (c, true) :: ('\'', true) :: markQuoted false cs
  | c :: cs =>
      if c = '"' then (c, true) :: markQuoted (!inString) cs else (c, inString) :: markQuoted inString cs

/-- The line up to a comment (R89). A `;` in a quotation starts none (log entry 14). -/
def stripComment (cs : List Char) : List Char :=
  ((markQuoted false cs).takeWhile (· ≠ (';', false))).map Prod.fst

/-- The operand texts, split at the commas outside quotations (log entry 14). -/
def splitCommas (cs : List Char) : List (List Char) :=
  ((markQuoted false cs).splitOn (',', false)).map (List.map Prod.fst)

/-- The text without white space at its two ends, which is skipped (log entry 14). -/
def trimSpace (cs : List Char) : List Char :=
  ((cs.dropWhile Char.isWhitespace).reverse.dropWhile Char.isWhitespace).reverse

/-- A digit's value, up to base sixteen, in capitals or small letters (log entry 14). -/
def digitValue (c : Char) : Option Nat :=
  if '0' ≤ c ∧ c ≤ '9' then some (c.toNat - 48)
  else if 'A' ≤ c ∧ c ≤ 'F' then some (c.toNat - 55)
  else if 'a' ≤ c ∧ c ≤ 'f' then some (c.toNat - 87)
  else none

/-- The digits of a number in a base, after those already read. -/
def readDigits (base : Nat) : Nat → List Char → Option Nat
  | acc, [] => some acc
  | acc, c :: cs =>
      match digitValue c with
      | some d => if d < base then readDigits base (acc * base + d) cs else none
      | none => none

/-- A number in decimal, hexadecimal (`0x`) or binary (`0b`) (R89). The prefixes are in small letters alone and zeros may
stand before the number (log entry 14). -/
def readNumber : List Char → Option Nat
  | [] => none
  | '0' :: 'x' :: c :: cs => readDigits 16 0 (c :: cs)
  | '0' :: 'b' :: c :: cs => readDigits 2 0 (c :: cs)
  | c :: cs => readDigits 10 0 (c :: cs)

/-- One operand's text (R89). Three apostrophes are the apostrophe, and a quotation mark in a string is refused, as the
string ended at it (log entry 14). -/
def readOperand (cs : List Char) : Except AsmError AsmOperand :=
  match cs with
  | ['\'', c, '\''] => .ok (.char c)
  | '"' :: rest =>
      match rest.reverse with
      | '"' :: body => if '"' ∈ body then .error .malformed else .ok (.text body.reverse)
      | _ => .error .malformed
  | _ =>
      match readNumber cs with
      | some n => .ok (.number n)
      | none => .error .malformed

/-- The name and operands of a line of text; none for a line that is empty but for a comment. White space ends the name
(log entry 14). -/
def readLine (cs : List Char) : Except AsmError (Option AsmLine) :=
  let body := trimSpace (stripComment cs)
  let name := body.takeWhile fun c => !c.isWhitespace
  let rest := trimSpace (body.dropWhile fun c => !c.isWhitespace)
  if name = [] then .ok none
  else if rest = [] then .ok (some ⟨String.ofList name, []⟩)
  else do
    let ops ← (splitCommas rest).mapM fun t => readOperand (trimSpace t)
    pure (some ⟨String.ofList name, ops⟩)

/-- The command words of one line of text (R89, R90). -/
def assembleText (text : List Char) : Except AsmError (List CmdWord) := do
  match ← readLine text with
  | none => pure []
  | some line => (← assemble line).mapM fun i => pure (encode i)

end Sys2Proof.Machine
end

