-- ==== Sys2Proof/Safety.lean ====
section
/-! DEFINITION. The terms claims use: what an entered fault looks like, the invariants of R46, a run and its end, the
precondition table of R202 and the fault it predicts, the commands of a list run one after another. -/

namespace Sys2Proof.Machine

/-- Command `i` faults with the ERR value `code` in `s`: the four fault fields change, ERRHI and ERRLO to the two
halves of the command word, and nothing else (R204, R205 of spec/60_exceptions.md). -/
def FaultsWith (i : Instr) (code : BitVec 4) (s : State) : Prop :=
  exec i s = .next
    { s with
      fault := true
      err := code
      errHi := (encode i).extractLsb' 32 32
      errLo := (encode i).extractLsb' 0 32 }

/-- The invariants of R46 (spec/10_state.md), clause by clause, and the generator's progress, which makes clause 8
inductive (R102, R103 of spec/40_crc_table.md). -/
structure StateInv (s : State) : Prop where
  /-- R46.1: FAULT = 0 if and only if ERR = 0. -/
  faultErr : s.fault = false ↔ s.err = 0#4
  /-- R46.2: BUSY = 1 implies TV = 0, SST = IDLE and FAULT = 0. -/
  busyAlone : s.busy = true → s.tv = false ∧ s.sst = .idle ∧ s.fault = false
  /-- R46.3: SST != IDLE implies TV = 1. -/
  openHasTable : s.sst ≠ .idle → s.tv = true
  /-- R46.4: SST = IDLE implies REM = 0. -/
  idleRem : s.sst = .idle → s.rem = 0#32
  /-- R46.5: SST = TYPE implies REM = LEN. -/
  typeRem : s.sst = .type → s.rem = s.len
  /-- R46.6: REM <= LEN. -/
  remLeLen : s.rem.toNat ≤ s.len.toNat
  /-- R46.7: ERR is never greater than 7 (SST is three-valued by its type). -/
  errRange : s.err.toNat ≤ 7
  /-- R46.8: TV = 1 implies T[n] = gen_entry(n) for every n. -/
  tableValid : s.tv = true → ∀ n : Fin 256, s.t[n] = genEntry n
  /-- R20: GEN_N is 0 to 256 and GEN_K is 0 to 7. -/
  genRange : s.genN ≤ 256 ∧ s.genK ≤ 7
  /-- While the generator runs, entry GEN_N is in progress, GEN_K iterations in, and every entry before it is done. -/
  genProgress : s.busy = true →
    s.genN < 256 ∧ s.genC = bitsteps s.genK (BitVec.ofNat 32 s.genN) ∧
      ∀ n : Fin 256, n.val < s.genN → s.t[n] = genEntry n

/-- The states a run reaches from the power-on state, whatever the host does. -/
inductive Reachable : State → Prop where
  | powerOn (acts : List HostAction) : Reachable { State.reset with hostActs := acts }
  | step {s s' : State} : Reachable s → Machine.step s = .next s' → Reachable s'

/-- `k` steps of the block, one after another; the host's `Host.Core.run` on this machine. -/
def runSteps : Nat → State → Result
  | 0, s => .next s
  | k + 1, s =>
    match step s with
    | .next s' => runSteps k s'
    | .fault r => .fault r
    | .refused r => .refused r

/-- A run has ended: the last command is accepted and BUSY = 0 (R241 of spec/70_reset_and_hazards.md). -/
def Ended (s : State) : Prop := s.hostActs = [] ∧ s.busy = false

/-- The host program `ws`, a list of command words (R241). -/
def loadProgram (ws : List CmdWord) (s : State) : State := { s with hostActs := ws.map .offer }

/-- What a run from `s₀` ending in `s` shows (R241): OUT as appended, the two ports, the values REG_RD could read. -/
structure Observation where
  emitted : List Byte
  status : Word
  result : Word
  registers : List Word
  deriving DecidableEq, Repr

/-- The observation at the end `s` of a run from `s₀` (R241). -/
def observe (s₀ s : State) : Observation where
  emitted := s.out.drop s₀.out.length
  status := statusPort s
  result := resultPort s
  registers := (List.range 12).filterMap fun sel => regview (BitVec.ofNat 32 sel) s

/-- Commands one after another, each complete before the next (R71 of spec/20_memory.md), the generator idle. -/
def execAll : List Instr → State → Result
  | [], s => .next s
  | i :: is, s =>
    match exec i s with
    | .next s' => execAll is s'
    | .fault r => .fault r
    | .refused r => .refused r

/-- The data bytes a command puts into a chunk (R144, R145). -/
def dataBytes : Instr → List Byte
  | .chData _ imm => [imm.extractLsb' 0 8]
  | .chDataw _ imm => be32 imm
  | .nop _ _ | .srst _ _ | .regRd _ _ | .tblGen _ _ | .tblRd _ _ | .crcInit _ _ | .crcByte _ _ | .crcWord _ _
  | .crcFinal _ _ | .sig _ _ | .chLen _ _ | .chType _ _ | .chEnd _ _ | .setW _ _ | .setH _ _ | .setCt _ _
  | .chIhdr _ _ | .chIend _ _ => []

/-- The number of bytes a completed command emits (the last column of R240's first table). -/
def emittedCount : Instr → Nat
  | .sig _ _ => 8
  | .chLen _ _ | .chType _ _ | .chDataw _ _ | .chEnd _ _ => 4
  | .chData _ _ => 1
  | .chIhdr _ _ => 25
  | .chIend _ _ => 12
  | .nop _ _ | .srst _ _ | .regRd _ _ | .tblGen _ _ | .tblRd _ _ | .crcInit _ _ | .crcByte _ _ | .crcWord _ _
  | .crcFinal _ _ | .setW _ _ | .setH _ _ | .setCt _ _ => 0

/-- The SST column of R202. -/
def sstRequired : Instr → Option Sst
  | .tblGen _ _ | .crcInit _ _ | .crcByte _ _ | .crcWord _ _ | .sig _ _ | .chLen _ _ | .chIhdr _ _ | .chIend _ _ =>
      some .idle
  | .chType _ _ => some .type
  | .chData _ _ | .chDataw _ _ | .chEnd _ _ => some .data
  | .nop _ _ | .srst _ _ | .regRd _ _ | .tblRd _ _ | .crcFinal _ _ | .setW _ _ | .setH _ _ | .setCt _ _ => none

/-- The TV column of R202. -/
def tableRequired : Instr → Bool
  | .tblRd _ _ | .crcByte _ _ | .crcWord _ _ | .chLen _ _ | .chType _ _ | .chIhdr _ _ | .chIend _ _ => true
  | .nop _ _ | .srst _ _ | .regRd _ _ | .tblGen _ _ | .crcInit _ _ | .crcFinal _ _ | .sig _ _ | .chData _ _
  | .chDataw _ _ | .chEnd _ _ | .setW _ _ | .setH _ _ | .setCt _ _ => false

/-- The further-check column of R202, with its ERR value (R200); 0 where it passes or there is none. -/
def furtherFault (i : Instr) (s : State) : BitVec 4 :=
  match i with
  | .chData _ _ => if s.rem.toNat < 1 then 5#4 else 0#4
  | .chDataw _ _ => if s.rem.toNat < 4 then 5#4 else 0#4
  | .chEnd _ _ => if s.rem = 0#32 then 0#4 else 6#4
  | .chIhdr _ _ => if s.w ≠ 0#32 ∧ s.h ≠ 0#32 ∧ (s.ct = 0#8 ∨ s.ct = 2#8) then 0#4 else 7#4
  | .nop _ _ | .srst _ _ | .regRd _ _ | .tblGen _ _ | .tblRd _ _ | .crcInit _ _ | .crcByte _ _ | .crcWord _ _
  | .crcFinal _ _ | .sig _ _ | .chLen _ _ | .chType _ _ | .setW _ _ | .setH _ _ | .setCt _ _ | .chIend _ _ => 0#4

/-- The ERR value of the earliest failing check of R203 on a decoded command, 0 where every check passes. -/
def predictedFault (i : Instr) (s : State) : BitVec 4 :=
  if WellFormed i = false then 2#4
  else if sstRequired i ≠ none ∧ sstRequired i ≠ some s.sst then 3#4
  else if tableRequired i = true ∧ s.tv = false then 4#4
  else furtherFault i s

/-- `fault_filter` of R206 on a decoded command: a valid SRST and a valid REG_RD act, everything else changes
nothing. -/
def faultFilter (i : Instr) (s : State) : State :=
  match i with
  | .srst rsv imm =>
      if rsv = 0#24 ∧ imm = 0#32 then { State.reset with t := s.t, out := s.out, hostActs := s.hostActs } else s
  | .regRd rsv imm =>
      if rsv = 0#24 then
        match regview imm s with
        | some v => { s with result := v }
        | none => s
      else s
  | .nop _ _ | .tblGen _ _ | .tblRd _ _ | .crcInit _ _ | .crcByte _ _ | .crcWord _ _ | .crcFinal _ _ | .sig _ _
  | .chLen _ _ | .chType _ _ | .chData _ _ | .chDataw _ _ | .chEnd _ _ | .setW _ _ | .setH _ _ | .setCt _ _
  | .chIhdr _ _ | .chIend _ _ => s

/-- The next step accepts a word that decodes to `i`. -/
def Accepts (s : State) (i : Instr) : Prop :=
  ∃ word rest, s.hostActs = .offer word :: rest ∧ s.busy = false ∧ decode word = .ok i

/-- The next step is a reset: the reset input, or an accepted valid SRST (R230). -/
def ResetStep (s : State) : Prop :=
  (∃ rest, s.hostActs = .resetInput :: rest) ∨ Accepts s (.srst 0#24 0#32)

/-- The commands that write RESULT (R25). -/
def writesResult : Instr → Bool
  | .tblRd _ _ | .crcFinal _ _ | .chEnd _ _ | .chIhdr _ _ | .chIend _ _ | .regRd _ _ => true
  | .nop _ _ | .srst _ _ | .tblGen _ _ | .crcInit _ _ | .crcByte _ _ | .crcWord _ _ | .sig _ _ | .chLen _ _
  | .chType _ _ | .chData _ _ | .chDataw _ _ | .setW _ _ | .setH _ _ | .setCt _ _ => false

/-- The commands that write ACC (R24). -/
def writesAcc : Instr → Bool
  | .crcInit _ _ | .crcByte _ _ | .crcWord _ _ | .chType _ _ | .chData _ _ | .chDataw _ _ | .chIhdr _ _
  | .chIend _ _ => true
  | .nop _ _ | .srst _ _ | .regRd _ _ | .tblGen _ _ | .tblRd _ _ | .crcFinal _ _ | .sig _ _ | .chLen _ _
  | .chEnd _ _ | .setW _ _ | .setH _ _ | .setCt _ _ => false

/-- The commands that leave SST other than they found it (R26). -/
def writesSst : Instr → Bool
  | .chLen _ _ | .chType _ _ | .chEnd _ _ => true
  | .nop _ _ | .srst _ _ | .regRd _ _ | .tblGen _ _ | .tblRd _ _ | .crcInit _ _ | .crcByte _ _ | .crcWord _ _
  | .crcFinal _ _ | .sig _ _ | .chData _ _ | .chDataw _ _ | .setW _ _ | .setH _ _ | .setCt _ _ | .chIhdr _ _
  | .chIend _ _ => false

/-- The commands that write LEN (R27). -/
def writesLen : Instr → Bool
  | .chLen _ _ | .chIhdr _ _ | .chIend _ _ => true
  | .nop _ _ | .srst _ _ | .regRd _ _ | .tblGen _ _ | .tblRd _ _ | .crcInit _ _ | .crcByte _ _ | .crcWord _ _
  | .crcFinal _ _ | .sig _ _ | .chType _ _ | .chData _ _ | .chDataw _ _ | .chEnd _ _ | .setW _ _ | .setH _ _
  | .setCt _ _ => false

/-- The commands that write REM (R28). -/
def writesRem : Instr → Bool
  | .chLen _ _ | .chData _ _ | .chDataw _ _ | .chIhdr _ _ | .chIend _ _ => true
  | .nop _ _ | .srst _ _ | .regRd _ _ | .tblGen _ _ | .tblRd _ _ | .crcInit _ _ | .crcByte _ _ | .crcWord _ _
  | .crcFinal _ _ | .sig _ _ | .chType _ _ | .chEnd _ _ | .setW _ _ | .setH _ _ | .setCt _ _ => false

/-- The commands that write TYPE (R29). -/
def writesType : Instr → Bool
  | .chType _ _ | .chIhdr _ _ | .chIend _ _ => true
  | .nop _ _ | .srst _ _ | .regRd _ _ | .tblGen _ _ | .tblRd _ _ | .crcInit _ _ | .crcByte _ _ | .crcWord _ _
  | .crcFinal _ _ | .sig _ _ | .chLen _ _ | .chData _ _ | .chDataw _ _ | .chEnd _ _ | .setW _ _ | .setH _ _
  | .setCt _ _ => false

/-- The opcode values R84 lists as illegal. -/
def illegalOpcodeValue (k : Nat) : Bool :=
  decide (0x03 ≤ k ∧ k ≤ 0x0F) || decide (0x12 ≤ k ∧ k ≤ 0x1F) || decide (0x24 ≤ k ∧ k ≤ 0x2F)
    || decide (k = 0x36) || decide (k = 0x37) || decide (0x3D ≤ k ∧ k ≤ 0xFF)

/-- Two states that agree on everything but the content of T, and on the part of T the block has filled: all of it
with TV = 1, the entries below GEN_N while the generator runs. -/
def AgreeButForHiddenTable (s₁ s₂ : State) : Prop :=
  s₂ = { s₁ with t := s₂.t } ∧ (s₁.tv = true → s₁.t = s₂.t) ∧
    (s₁.busy = true → ∀ n : Fin 256, n.val < s₁.genN → s₁.t[n] = s₂.t[n])

end Sys2Proof.Machine
end

