-- ==== Sys2Proof/Certificates/Slice0/Obligations.lean ====
section
/-! DEFINITION. The statements for the provers. Each docstring names the rules of spec/ it formalises; OBLIGATIONS.json
lists them in this order. `FaultsWith i code s` (Safety.lean) says that FAULT, ERR, ERRHI and ERRLO are written and
nothing else changes. What the host does reaches a step through `hostActs`, the model's own list (log entry 1): every
statement that names it, or `Accepts`, `ResetStep`, `Reachable` or `loadProgram`, is said by means of it. -/

open Sys2Proof
open Sys2Proof.Machine

/-! ### Encoding -/

/-- R83 (spec/30_encoding.md): the opcode map, for every RSV and IMM; OP alone selects the command, and the command
fixes the operand class. -/
def Obligations.EveryAssignedOpcodeDecodes : Prop :=
  (∀ (rsv : Rsv) (imm : Word),
    decode (0x00#8 ++ rsv ++ imm) = .ok (.nop rsv imm) ∧
    decode (0x01#8 ++ rsv ++ imm) = .ok (.srst rsv imm) ∧
    decode (0x02#8 ++ rsv ++ imm) = .ok (.regRd rsv imm) ∧
    decode (0x10#8 ++ rsv ++ imm) = .ok (.tblGen rsv imm) ∧
    decode (0x11#8 ++ rsv ++ imm) = .ok (.tblRd rsv imm) ∧
    decode (0x20#8 ++ rsv ++ imm) = .ok (.crcInit rsv imm) ∧
    decode (0x21#8 ++ rsv ++ imm) = .ok (.crcByte rsv imm) ∧
    decode (0x22#8 ++ rsv ++ imm) = .ok (.crcWord rsv imm) ∧
    decode (0x23#8 ++ rsv ++ imm) = .ok (.crcFinal rsv imm) ∧
    decode (0x30#8 ++ rsv ++ imm) = .ok (.sig rsv imm) ∧
    decode (0x31#8 ++ rsv ++ imm) = .ok (.chLen rsv imm) ∧
    decode (0x32#8 ++ rsv ++ imm) = .ok (.chType rsv imm) ∧
    decode (0x33#8 ++ rsv ++ imm) = .ok (.chData rsv imm) ∧
    decode (0x34#8 ++ rsv ++ imm) = .ok (.chDataw rsv imm) ∧
    decode (0x35#8 ++ rsv ++ imm) = .ok (.chEnd rsv imm) ∧
    decode (0x38#8 ++ rsv ++ imm) = .ok (.setW rsv imm) ∧
    decode (0x39#8 ++ rsv ++ imm) = .ok (.setH rsv imm) ∧
    decode (0x3A#8 ++ rsv ++ imm) = .ok (.setCt rsv imm) ∧
    decode (0x3B#8 ++ rsv ++ imm) = .ok (.chIhdr rsv imm) ∧
    decode (0x3C#8 ++ rsv ++ imm) = .ok (.chIend rsv imm)) ∧
  (∀ (rsv : Rsv) (imm : Word),
    (Instr.nop rsv imm).opClass = .n ∧ (Instr.srst rsv imm).opClass = .n ∧ (Instr.regRd rsv imm).opClass = .s ∧
    (Instr.tblGen rsv imm).opClass = .n ∧ (Instr.tblRd rsv imm).opClass = .b ∧ (Instr.crcInit rsv imm).opClass = .n ∧
    (Instr.crcByte rsv imm).opClass = .b ∧ (Instr.crcWord rsv imm).opClass = .w ∧
    (Instr.crcFinal rsv imm).opClass = .n ∧ (Instr.sig rsv imm).opClass = .n ∧ (Instr.chLen rsv imm).opClass = .w ∧
    (Instr.chType rsv imm).opClass = .w ∧ (Instr.chData rsv imm).opClass = .b ∧
    (Instr.chDataw rsv imm).opClass = .w ∧ (Instr.chEnd rsv imm).opClass = .n ∧ (Instr.setW rsv imm).opClass = .w ∧
    (Instr.setH rsv imm).opClass = .w ∧ (Instr.setCt rsv imm).opClass = .b ∧ (Instr.chIhdr rsv imm).opClass = .n ∧
    (Instr.chIend rsv imm).opClass = .n)

/-- R84, R88: the values R84 lists, and no others, are illegal, and there are 236 of them. -/
def Obligations.IllegalOpcodesAreExactlyThoseListed : Prop :=
  (∀ (op : BitVec 8) (rsv : Rsv) (imm : Word),
    (∃ e, decode (op ++ rsv ++ imm) = .error e) ↔ illegalOpcodeValue op.toNat = true) ∧
  ((List.range 256).filter illegalOpcodeValue).length = 236

/-- R84: the values R84 lists, and no others, are illegal; a word with an illegal OP takes E_OPCODE, whatever its RSV and
IMM, and in the fault state is discarded. -/
def Obligations.IllegalOpcodeFaultsOrIsDiscarded : Prop :=
  (∀ (op : BitVec 8) (rsv : Rsv) (imm : Word),
    (∃ e, decode (op ++ rsv ++ imm) = .error e) ↔ illegalOpcodeValue op.toNat = true) ∧
  (∀ (op : BitVec 8) (rsv : Rsv) (imm : Word) (s : State), illegalOpcodeValue op.toNat = true → s.fault = false →
    execute (op ++ rsv ++ imm) s =
      .next { s with fault := true, err := 1#4, errHi := op ++ rsv, errLo := imm }) ∧
  (∀ (op : BitVec 8) (rsv : Rsv) (imm : Word) (s : State), illegalOpcodeValue op.toNat = true → s.fault = true →
    execute (op ++ rsv ++ imm) s = .next s) ∧
  ((List.range 256).filter illegalOpcodeValue).length = 236

/-- Every command survives encoding and decoding, with every value of its two fields (R80, R83, R88). -/
def Obligations.DecodeOfEncodeIsTheCommand : Prop :=
  (∀ i : Instr, decode (encode i) = .ok i) ∧
  (∀ i j : Instr, encode i = encode j → i = j)

/-- A decoded word is the encoding of what it decodes to, so ERRHI and ERRLO get the whole word the host wrote
(R80, R88, R200 "the whole faulting command word"). -/
def Obligations.EncodeOfDecodeIsTheWord : Prop :=
  ∀ (word : CmdWord) (i : Instr), decode word = .ok i → encode i = word

/-! ### The step -/

/-- An accepted word that decodes to `i` runs as `i`, on the state with the word taken from the host's actions (R87,
R203). The list of host actions is the model's own (log entry 1). -/
def Obligations.StepRunsTheAcceptedCommand : Prop :=
  ∀ (s : State) (word : CmdWord) (rest : List HostAction) (i : Instr),
    s.busy = false → s.hostActs = .offer word :: rest → decode word = .ok i →
    step s = exec i { s with hostActs := rest }

/-- R87: a word offered while BUSY = 1 is not accepted and has no effect: it stays offered and the block steps as if it
were not there; a word offered while BUSY = 0 is taken in that very step. The list of host actions is the model's own
(log entry 1). -/
def Obligations.WordIsAcceptedExactlyWhenPortReady : Prop :=
  (∀ (s : State) (word : CmdWord) (rest : List HostAction), s.busy = true →
    ∃ t : State, step { s with hostActs := [] } = .next { t with hostActs := [] } ∧
      step { s with hostActs := .offer word :: rest } = .next { t with hostActs := .offer word :: rest }) ∧
  (∀ (s : State) (word : CmdWord) (rest : List HostAction), s.busy = false →
    ∃ t : State, step { s with hostActs := .offer word :: rest } = .next t ∧ t.hostActs = rest)

/-- R235: TBL_GEN is the only command that sets BUSY = 1, and the port is ready exactly when BUSY = 0. That a
step accepts a command is said through the model's list of host actions (log entry 1). -/
def Obligations.OnlyTblGenClosesThePort : Prop :=
  (∀ (s s' : State), step s = .next s' → portReady s = true → portReady s' = false →
    Accepts s (.tblGen 0#24 0#32)) ∧
  (∀ s : State, portReady s = true ↔ s.busy = false)

/-- R215: with nothing offered and BUSY = 0 the block holds its state; a host that does nothing for a step is the only
thing used up. That idle action is the model's own (log entry 1). -/
def Obligations.QuietBlockHoldsItsState : Prop :=
  (∀ s : State, s.busy = false → s.hostActs = [] → step s = .next s) ∧
  (∀ (s : State) (rest : List HostAction), s.busy = false → s.hostActs = .idle :: rest →
    step s = .next { s with hostActs := rest })

/-! ### The table generator -/

/-- R102: the generator's step, taken without any command exactly while BUSY = 1, in its three cases: inside an entry, at
the end of an entry, at the end of the last entry (where `complete_gen` of R103 acts too). -/
def Obligations.GeneratorIterationStep : Prop :=
  (∀ s : State, s.busy = false → s.hostActs = [] → step s = .next s) ∧
  ∀ (s : State) (c : Word), s.busy = true → s.hostActs = [] →
    c = (if s.genC.getLsbD 0 then 0xEDB88320#32 ^^^ (s.genC >>> 1) else s.genC >>> 1) →
    (s.genK ≠ 7 → step s = .next { s with genK := s.genK + 1, genC := c }) ∧
    (∀ h : s.genN < 256, s.genK = 7 → s.genN ≠ 255 →
      step s = .next
        { s with
          t := s.t.set s.genN c h
          genN := s.genN + 1
          genK := 0
          genC := BitVec.ofNat 32 (s.genN + 1) }) ∧
    (∀ h : s.genN < 256, s.genK = 7 → s.genN = 255 →
      step s = .next
        { s with
          t := s.t.set s.genN c h
          genN := 256
          genK := 0
          genC := 0#32
          busy := false
          tv := true })

/-- R103: from the acceptance of TBL_GEN the port is closed for exactly 2048 steps, with TV = 0; after them every entry
holds gen_entry, whatever T held, and nothing outside the generator's state has changed. The state reached is the
collapsed transition of R104. That TBL_GEN is offered is said through the model's list of host actions (log entry 1). -/
def Obligations.GenerationTakes2048StepsAndFillsTheTable : Prop :=
  ∀ s : State, s.busy = false → s.fault = false → s.sst = .idle →
    (∀ k, k < 2048 → ∃ s', runSteps (k + 1) { s with hostActs := [.offer 0x1000000000000000#64] } = .next s' ∧
      s'.busy = true ∧ s'.tv = false) ∧
    runSteps 2049 { s with hostActs := [.offer 0x1000000000000000#64] } = .next
      { s with
        t := Vector.ofFn fun n : Fin 256 => genEntry n
        tv := true
        busy := false
        genN := 256
        genK := 0
        genC := 0#32
        hostActs := [] }

/-- R100: gen_entry is eight iterations of the shift and XOR from n, with the five values the rule lists. -/
def Obligations.TableFunctionIsEightIterations : Prop :=
  (∀ n : Nat, n < 256 →
    genEntry n =
      (fun c : Word => if c.getLsbD 0 then 0xEDB88320#32 ^^^ (c >>> 1) else c >>> 1)^[8] (BitVec.ofNat 32 n)) ∧
  genEntry 0 = 0x00000000#32 ∧ genEntry 1 = 0x77073096#32 ∧ genEntry 2 = 0xEE0E612C#32 ∧
  genEntry 128 = 0xEDB88320#32 ∧ genEntry 255 = 0x2D02EF8D#32

/-! ### The reduce -/

/-- R126: with a valid table the table reduce equals eight bitwise iterations, for every accumulator and byte. -/
def Obligations.TableReduceEqualsBitwiseReduce : Prop :=
  ∀ (t : Table) (a : Word) (b : Byte), (∀ n : Fin 256, t[n] = genEntry n) →
    upd t a b =
      (fun c : Word => if c.getLsbD 0 then 0xEDB88320#32 ^^^ (c >>> 1) else c >>> 1)^[8] (a ^^^ b.setWidth 32)

/-- R127: the two reference values, and the accumulator behind the first. -/
def Obligations.ChecksumReferenceValues : Prop :=
  checksum [0x49#8, 0x45#8, 0x4E#8, 0x44#8] = 0xAE426082#32 ∧
  checksum [] = 0#32 ∧
  updStar genTable 0xFFFFFFFF#32 [0x49#8, 0x45#8, 0x4E#8, 0x44#8] = 0x51BD9F7D#32

/-- R121 on the block: from every state that keeps R46's invariants, with a valid table, no chunk open and no fault,
CRC_INIT, one CRC_BYTE per byte and CRC_FINAL put into RESULT the CRC of the bytes, computed bit by bit. -/
def Obligations.StandaloneCrcIsTheReflectedCrc32 : Prop :=
  ∀ (s : State) (d : List Byte), StateInv s → s.fault = false → s.sst = .idle → s.tv = true →
    ∃ a : Word,
      a = d.foldl (fun a b =>
        (fun c : Word => if c.getLsbD 0 then 0xEDB88320#32 ^^^ (c >>> 1) else c >>> 1)^[8] (a ^^^ b.setWidth 32))
        0xFFFFFFFF#32 ∧
      checksum d = a ^^^ 0xFFFFFFFF#32 ∧
      execAll ([.crcInit 0#24 0#32] ++ d.map (fun b => .crcByte 0#24 (b.setWidth 32)) ++ [.crcFinal 0#24 0#32]) s
        = .next { s with acc := a, result := a ^^^ 0xFFFFFFFF#32 }

/-! ### The commands, one rule each -/

/-- R101, TBL_GEN: encoding, checks in order, effect, discard in the fault state, and the rule's example from reset. -/
def Obligations.TblGenStartsGeneration : Prop :=
  decode 0x1000000000000000#64 = .ok (.tblGen 0#24 0#32) ∧
  (∀ rsv imm s, s.fault = false → (rsv ≠ 0#24 ∨ imm ≠ 0#32) → FaultsWith (.tblGen rsv imm) 2#4 s) ∧
  (∀ s, s.fault = false → s.sst ≠ .idle → FaultsWith (.tblGen 0#24 0#32) 3#4 s) ∧
  (∀ s, s.fault = false → s.sst = .idle →
    exec (.tblGen 0#24 0#32) s =
      .next { s with tv := false, busy := true, genN := 0, genK := 0, genC := 0#32 }) ∧
  (∀ rsv imm s, s.fault = true → exec (.tblGen rsv imm) s = .next s) ∧
  (∃ s₁ s₂, exec (.tblGen 0#24 0#32) State.reset = .next s₁ ∧ statusPort s₁ = 1#32 ∧ portReady s₁ = false ∧
    runSteps 2048 s₁ = .next s₂ ∧ statusPort s₂ = 2#32 ∧ portReady s₂ = true)

/-- R105, TBL_RD: encoding, checks in order, effect with any SST, and the rule's corner cases. -/
def Obligations.TblRdReadsOneEntry : Prop :=
  (∀ i : Byte, decode (0x11#8 ++ 0#24 ++ 0#24 ++ i) = .ok (.tblRd 0#24 (i.setWidth 32))) ∧
  (∀ rsv imm s, s.fault = false → (rsv ≠ 0#24 ∨ 256 ≤ imm.toNat) → FaultsWith (.tblRd rsv imm) 2#4 s) ∧
  (∀ (i : Byte) s, s.fault = false → s.tv = false → FaultsWith (.tblRd 0#24 (i.setWidth 32)) 4#4 s) ∧
  (∀ (i : Byte) s, s.fault = false → s.tv = true →
    exec (.tblRd 0#24 (i.setWidth 32)) s = .next { s with result := s.t[i.toNat]'i.isLt }) ∧
  (∀ s, s.fault = false → s.tv = true → (∀ n : Fin 256, s.t[n] = genEntry n) →
    exec (.tblRd 0#24 0#32) s = .next { s with result := 0#32 } ∧
    exec (.tblRd 0#24 1#32) s = .next { s with result := 0x77073096#32 }) ∧
  FaultsWith (.tblRd 0#24 1#32) 4#4 State.reset

/-- R122, CRC_INIT. -/
def Obligations.CrcInitStartsACrc : Prop :=
  decode 0x2000000000000000#64 = .ok (.crcInit 0#24 0#32) ∧
  (∀ rsv imm s, s.fault = false → (rsv ≠ 0#24 ∨ imm ≠ 0#32) → FaultsWith (.crcInit rsv imm) 2#4 s) ∧
  (∀ s, s.fault = false → s.sst ≠ .idle → FaultsWith (.crcInit 0#24 0#32) 3#4 s) ∧
  (∀ s, s.fault = false → s.sst = .idle →
    exec (.crcInit 0#24 0#32) s = .next { s with acc := 0xFFFFFFFF#32 })

/-- R123, CRC_BYTE, with the rule's corner cases and example on a valid table. -/
def Obligations.CrcByteFoldsOneByte : Prop :=
  (∀ b : Byte, decode (0x21#8 ++ 0#24 ++ 0#24 ++ b) = .ok (.crcByte 0#24 (b.setWidth 32))) ∧
  (∀ rsv imm s, s.fault = false → (rsv ≠ 0#24 ∨ 256 ≤ imm.toNat) → FaultsWith (.crcByte rsv imm) 2#4 s) ∧
  (∀ (b : Byte) s, s.fault = false → s.sst ≠ .idle → FaultsWith (.crcByte 0#24 (b.setWidth 32)) 3#4 s) ∧
  (∀ (b : Byte) s, s.fault = false → s.sst = .idle → s.tv = false →
    FaultsWith (.crcByte 0#24 (b.setWidth 32)) 4#4 s) ∧
  (∀ (b : Byte) s, s.fault = false → s.sst = .idle → s.tv = true →
    exec (.crcByte 0#24 (b.setWidth 32)) s = .next { s with acc := upd s.t s.acc b }) ∧
  (∀ s, s.fault = false → s.sst = .idle → s.tv = true → (∀ n : Fin 256, s.t[n] = genEntry n) →
    s.acc = 0xFFFFFFFF#32 →
    exec (.crcByte 0#24 0x49#32) s = .next { s with acc := 0x22FDE946#32 } ∧
    execAll [.crcByte 0#24 0#32, .crcFinal 0#24 0#32] s =
      .next { s with acc := 0x2DFD1072#32, result := 0xD202EF8D#32 } ∧
    execAll [.crcByte 0#24 0xFF#32, .crcFinal 0#24 0#32] s =
      .next { s with acc := 0x00FFFFFF#32, result := 0xFF000000#32 })

/-- R124, CRC_WORD: most significant byte first, equal to four CRC_BYTE commands, with the rule's values. -/
def Obligations.CrcWordFoldsFourBytesBigEndian : Prop :=
  (∀ v : Word, decode (0x22#8 ++ 0#24 ++ v) = .ok (.crcWord 0#24 v)) ∧
  (∀ rsv v s, s.fault = false → rsv ≠ 0#24 → FaultsWith (.crcWord rsv v) 2#4 s) ∧
  (∀ (v : Word) (s : State), s.fault = false → s.sst ≠ .idle → FaultsWith (.crcWord 0#24 v) 3#4 s) ∧
  (∀ (v : Word) (s : State), s.fault = false → s.sst = .idle → s.tv = false → FaultsWith (.crcWord 0#24 v) 4#4 s) ∧
  (∀ (v : Word) (s : State), s.fault = false → s.sst = .idle → s.tv = true →
    exec (.crcWord 0#24 v) s = .next
      { s with
        acc := upd s.t (upd s.t (upd s.t (upd s.t s.acc (v.extractLsb' 24 8)) (v.extractLsb' 16 8))
          (v.extractLsb' 8 8)) (v.extractLsb' 0 8) } ∧
    exec (.crcWord 0#24 v) s =
      execAll
        [.crcByte 0#24 ((v.extractLsb' 24 8).setWidth 32), .crcByte 0#24 ((v.extractLsb' 16 8).setWidth 32),
          .crcByte 0#24 ((v.extractLsb' 8 8).setWidth 32), .crcByte 0#24 ((v.extractLsb' 0 8).setWidth 32)] s) ∧
  (∀ s, s.fault = false → s.sst = .idle → s.tv = true → (∀ n : Fin 256, s.t[n] = genEntry n) →
    s.acc = 0xFFFFFFFF#32 →
    exec (.crcWord 0#24 0#32) s = .next { s with acc := 0xDEBB20E3#32 } ∧
    exec (.crcWord 0#24 0xFFFFFFFF#32) s = .next { s with acc := 0#32 } ∧
    exec (.crcWord 0#24 0x49454E44#32) s = .next { s with acc := 0x51BD9F7D#32 })

/-- R125, CRC_FINAL: any SST, no table needed, ACC unchanged; 0 straight after reset; the rule's example. -/
def Obligations.CrcFinalDeliversTheCrc : Prop :=
  decode 0x2300000000000000#64 = .ok (.crcFinal 0#24 0#32) ∧
  (∀ rsv imm s, s.fault = false → (rsv ≠ 0#24 ∨ imm ≠ 0#32) → FaultsWith (.crcFinal rsv imm) 2#4 s) ∧
  (∀ s, s.fault = false →
    exec (.crcFinal 0#24 0#32) s = .next { s with result := s.acc ^^^ 0xFFFFFFFF#32 }) ∧
  exec (.crcFinal 0#24 0#32) State.reset = .next { State.reset with result := 0#32 } ∧
  (∀ s, s.fault = false → s.sst = .idle → s.tv = true → (∀ n : Fin 256, s.t[n] = genEntry n) →
    execAll [.crcInit 0#24 0#32, .crcWord 0#24 0x49454E44#32, .crcFinal 0#24 0#32] s =
      .next { s with acc := 0x51BD9F7D#32, result := 0xAE426082#32 })

/-- R142 and R149, CH_LEN: every length 0 to 0xFFFFFFFF opens a chunk; ACC is not touched. -/
def Obligations.ChLenOpensAChunk : Prop :=
  (∀ n : Word, decode (0x31#8 ++ 0#24 ++ n) = .ok (.chLen 0#24 n)) ∧
  (∀ rsv n s, s.fault = false → rsv ≠ 0#24 → FaultsWith (.chLen rsv n) 2#4 s) ∧
  (∀ (n : Word) (s : State), s.fault = false → s.sst ≠ .idle → FaultsWith (.chLen 0#24 n) 3#4 s) ∧
  (∀ (n : Word) (s : State), s.fault = false → s.sst = .idle → s.tv = false → FaultsWith (.chLen 0#24 n) 4#4 s) ∧
  (∀ (n : Word) (s : State), s.fault = false → s.sst = .idle → s.tv = true →
    exec (.chLen 0#24 n) s = .next
      { s with
        out := s.out ++ [n.extractLsb' 24 8, n.extractLsb' 16 8, n.extractLsb' 8 8, n.extractLsb' 0 8]
        outCnt := s.outCnt + 4#32
        len := n
        rem := n
        sst := .type })

/-- R143 and R148, CH_TYPE: every type is emitted unchecked and the CRC restarts over it; the TV check cannot fire in a
state that keeps R46's invariants; the rule's example. -/
def Obligations.ChTypeEmitsTheTypeAndRestartsTheCrc : Prop :=
  (∀ t : Word, decode (0x32#8 ++ 0#24 ++ t) = .ok (.chType 0#24 t)) ∧
  (∀ rsv t s, s.fault = false → rsv ≠ 0#24 → FaultsWith (.chType rsv t) 2#4 s) ∧
  (∀ (t : Word) (s : State), s.fault = false → s.sst ≠ .type → FaultsWith (.chType 0#24 t) 3#4 s) ∧
  (∀ (t : Word) (s : State), s.fault = false → s.sst = .type → s.tv = false → FaultsWith (.chType 0#24 t) 4#4 s) ∧
  (∀ s, StateInv s → s.sst = .type → s.tv = true) ∧
  (∀ (t : Word) (s : State), s.fault = false → s.sst = .type → s.tv = true →
    exec (.chType 0#24 t) s = .next
      { s with
        out := s.out ++ [t.extractLsb' 24 8, t.extractLsb' 16 8, t.extractLsb' 8 8, t.extractLsb' 0 8]
        outCnt := s.outCnt + 4#32
        chunkType := t
        acc := upd s.t (upd s.t (upd s.t (upd s.t 0xFFFFFFFF#32 (t.extractLsb' 24 8)) (t.extractLsb' 16 8))
          (t.extractLsb' 8 8)) (t.extractLsb' 0 8)
        sst := .data }) ∧
  (∀ s, s.fault = false → s.sst = .type → s.tv = true → (∀ n : Fin 256, s.t[n] = genEntry n) →
    exec (.chType 0#24 0x49444154#32) s = .next
      { s with
        out := s.out ++ [0x49#8, 0x44#8, 0x41#8, 0x54#8]
        outCnt := s.outCnt + 4#32
        chunkType := 0x49444154#32
        acc := 0xCA50F9E1#32
        sst := .data })

/-- R144, CH_DATA: one byte out and into the CRC, one off REM; never beyond the declared length; the rule's example. -/
def Obligations.ChDataEmitsOneByte : Prop :=
  (∀ b : Byte, decode (0x33#8 ++ 0#24 ++ 0#24 ++ b) = .ok (.chData 0#24 (b.setWidth 32))) ∧
  (∀ rsv imm s, s.fault = false → (rsv ≠ 0#24 ∨ 256 ≤ imm.toNat) → FaultsWith (.chData rsv imm) 2#4 s) ∧
  (∀ (b : Byte) s, s.fault = false → s.sst ≠ .data → FaultsWith (.chData 0#24 (b.setWidth 32)) 3#4 s) ∧
  (∀ (b : Byte) s, s.fault = false → s.sst = .data → s.rem = 0#32 →
    FaultsWith (.chData 0#24 (b.setWidth 32)) 5#4 s) ∧
  (∀ (b : Byte) s, s.fault = false → s.sst = .data → s.rem ≠ 0#32 →
    exec (.chData 0#24 (b.setWidth 32)) s = .next
      { s with
        out := s.out ++ [b]
        outCnt := s.outCnt + 1#32
        acc := upd s.t s.acc b
        rem := s.rem - 1#32 }) ∧
  (∀ s, s.fault = false → s.sst = .idle → s.tv = true →
    (∀ n : Fin 256, s.t[n] = genEntry n) →
    ∃ s', execAll [.chLen 0#24 1#32, .chType 0#24 0x49444154#32, .chData 0#24 0xAB#32] s = .next s' ∧
      s'.out = s.out ++ [0#8, 0#8, 0#8, 1#8, 0x49#8, 0x44#8, 0x41#8, 0x54#8, 0xAB#8] ∧ s'.rem = 0#32 ∧
      s'.acc = upd s.t 0xCA50F9E1#32 0xAB#8 ∧ s'.fault = false)

/-- R145, CH_DATAW: four bytes, first byte v[31:24], equal to four CH_DATA commands where REM >= 4; where REM is 1 to 3
it emits nothing and the four CH_DATA commands emit REM bytes before they fault; the rule's example. -/
def Obligations.ChDatawEmitsFourBytes : Prop :=
  (∀ v : Word, decode (0x34#8 ++ 0#24 ++ v) = .ok (.chDataw 0#24 v)) ∧
  (∀ rsv v s, s.fault = false → rsv ≠ 0#24 → FaultsWith (.chDataw rsv v) 2#4 s) ∧
  (∀ (v : Word) (s : State), s.fault = false → s.sst ≠ .data → FaultsWith (.chDataw 0#24 v) 3#4 s) ∧
  (∀ (v : Word) (s : State), s.fault = false → s.sst = .data → s.rem.toNat < 4 → FaultsWith (.chDataw 0#24 v) 5#4 s) ∧
  (∀ (v : Word) (s : State), s.fault = false → s.sst = .data → 4 ≤ s.rem.toNat →
    exec (.chDataw 0#24 v) s = .next
      { s with
        out := s.out ++ [v.extractLsb' 24 8, v.extractLsb' 16 8, v.extractLsb' 8 8, v.extractLsb' 0 8]
        outCnt := s.outCnt + 4#32
        acc := upd s.t (upd s.t (upd s.t (upd s.t s.acc (v.extractLsb' 24 8)) (v.extractLsb' 16 8))
          (v.extractLsb' 8 8)) (v.extractLsb' 0 8)
        rem := s.rem - 4#32 } ∧
    exec (.chDataw 0#24 v) s =
      execAll
        [.chData 0#24 ((v.extractLsb' 24 8).setWidth 32), .chData 0#24 ((v.extractLsb' 16 8).setWidth 32),
          .chData 0#24 ((v.extractLsb' 8 8).setWidth 32), .chData 0#24 ((v.extractLsb' 0 8).setWidth 32)] s) ∧
  (∀ (v : Word) (s : State), s.fault = false → s.sst = .data → 1 ≤ s.rem.toNat → s.rem.toNat ≤ 3 →
    ∃ s', execAll
        [.chData 0#24 ((v.extractLsb' 24 8).setWidth 32), .chData 0#24 ((v.extractLsb' 16 8).setWidth 32),
          .chData 0#24 ((v.extractLsb' 8 8).setWidth 32), .chData 0#24 ((v.extractLsb' 0 8).setWidth 32)] s
        = .next s' ∧ s'.out.length = s.out.length + s.rem.toNat ∧ s'.err = 5#4) ∧
  (∀ s, s.fault = false → s.sst = .idle → s.tv = true →
    ∃ s', execAll [.chLen 0#24 4#32, .chType 0#24 0x49444154#32, .chDataw 0#24 2#32] s = .next s' ∧
      s'.out = s.out ++ [0#8, 0#8, 0#8, 4#8, 0x49#8, 0x44#8, 0x41#8, 0x54#8, 0#8, 0#8, 0#8, 2#8] ∧
      s'.rem = 0#32 ∧ s'.fault = false)

/-- R146, CH_END: the CRC out and into RESULT, the chunk closed, ACC kept; never short of the declared length; the empty
chunk and the rule's example. -/
def Obligations.ChEndClosesTheChunk : Prop :=
  decode 0x3500000000000000#64 = .ok (.chEnd 0#24 0#32) ∧
  (∀ rsv imm s, s.fault = false → (rsv ≠ 0#24 ∨ imm ≠ 0#32) → FaultsWith (.chEnd rsv imm) 2#4 s) ∧
  (∀ s, s.fault = false → s.sst ≠ .data → FaultsWith (.chEnd 0#24 0#32) 3#4 s) ∧
  (∀ s, s.fault = false → s.sst = .data → s.rem ≠ 0#32 → FaultsWith (.chEnd 0#24 0#32) 6#4 s) ∧
  (∀ (s : State) (c : Word), s.fault = false → s.sst = .data → s.rem = 0#32 → c = s.acc ^^^ 0xFFFFFFFF#32 →
    exec (.chEnd 0#24 0#32) s = .next
      { s with
        out := s.out ++ [c.extractLsb' 24 8, c.extractLsb' 16 8, c.extractLsb' 8 8, c.extractLsb' 0 8]
        outCnt := s.outCnt + 4#32
        result := c
        sst := .idle }) ∧
  (∀ (t : Word) (s : State), s.fault = false → s.sst = .idle → s.tv = true → (∀ n : Fin 256, s.t[n] = genEntry n) →
    ∃ s', execAll [.chLen 0#24 0#32, .chType 0#24 t, .chEnd 0#24 0#32] s = .next s' ∧ s'.fault = false ∧
      s'.out = s.out ++ be32 0#32 ++ be32 t ++ be32 (checksum (be32 t)) ∧ s'.result = checksum (be32 t) ∧
      s'.sst = .idle) ∧
  (∀ s, s.fault = false → s.sst = .idle → s.tv = true → (∀ n : Fin 256, s.t[n] = genEntry n) →
    ∃ s', execAll [.chLen 0#24 0#32, .chType 0#24 0x49454E44#32, .chEnd 0#24 0#32] s = .next s' ∧
      s'.out = s.out ++ [0#8, 0#8, 0#8, 0#8, 0x49#8, 0x45#8, 0x4E#8, 0x44#8, 0xAE#8, 0x42#8, 0x60#8, 0x82#8] ∧
      s'.result = 0xAE426082#32 ∧ s'.acc = 0x51BD9F7D#32)

/-- R147: every chunk is well-formed. Whatever commands other than CH_END and SRST stand between CH_LEN n and CH_TYPE t
and between CH_TYPE t and CH_END, if none of them all faulted the bytes put in OUT are the length, the type, the data
and the CRC of type and data, and the data is n bytes long; and so for CH_IHDR and CH_IEND. -/
def Obligations.EveryCompletedChunkIsWellFormed : Prop :=
  (∀ (s s' : State) (n t : Word) (before during : List Instr), StateInv s → s.fault = false →
    (∀ i ∈ before ++ during, (∀ rsv imm, i ≠ .chEnd rsv imm) ∧ (∀ rsv imm, i ≠ .srst rsv imm)) →
    execAll ([.chLen 0#24 n] ++ before ++ [.chType 0#24 t] ++ during ++ [.chEnd 0#24 0#32]) s = .next s' →
    s'.fault = false →
    s'.out = s.out ++ be32 n ++ be32 t ++ during.flatMap dataBytes
      ++ be32 (checksum (be32 t ++ during.flatMap dataBytes)) ∧
    (during.flatMap dataBytes).length = n.toNat) ∧
  (∀ s s', StateInv s → s.fault = false → exec (.chIhdr 0#24 0#32) s = .next s' → s'.fault = false →
    ∃ d, s'.out = s.out ++ be32 13#32 ++ be32 0x49484452#32 ++ d ++ be32 (checksum (be32 0x49484452#32 ++ d)) ∧
      d.length = 13) ∧
  (∀ s s', StateInv s → s.fault = false → exec (.chIend 0#24 0#32) s = .next s' → s'.fault = false →
    s'.out = s.out ++ be32 0#32 ++ be32 0x49454E44#32 ++ be32 (checksum (be32 0x49454E44#32)))

/-- R170, SIG: the eight signature bytes, no table needed. -/
def Obligations.SigEmitsTheSignature : Prop :=
  decode 0x3000000000000000#64 = .ok (.sig 0#24 0#32) ∧
  (∀ rsv imm s, s.fault = false → (rsv ≠ 0#24 ∨ imm ≠ 0#32) → FaultsWith (.sig rsv imm) 2#4 s) ∧
  (∀ s, s.fault = false → s.sst ≠ .idle → FaultsWith (.sig 0#24 0#32) 3#4 s) ∧
  (∀ s, s.fault = false → s.sst = .idle →
    exec (.sig 0#24 0#32) s = .next
      { s with
        out := s.out ++ [0x89#8, 0x50#8, 0x4E#8, 0x47#8, 0x0D#8, 0x0A#8, 0x1A#8, 0x0A#8]
        outCnt := s.outCnt + 8#32 }) ∧
  (∃ s', exec (.sig 0#24 0#32) State.reset = .next s' ∧
    s'.out = [0x89#8, 0x50#8, 0x4E#8, 0x47#8, 0x0D#8, 0x0A#8, 0x1A#8, 0x0A#8] ∧ s'.outCnt = 8#32)

/-- R171, SET_W: any word, with any SST and TV; a width of 0 is accepted and CH_IHDR then takes E_IHDR. -/
def Obligations.SetWWritesTheWidth : Prop :=
  (∀ v : Word, decode (0x38#8 ++ 0#24 ++ v) = .ok (.setW 0#24 v)) ∧
  (∀ rsv v s, s.fault = false → rsv ≠ 0#24 → FaultsWith (.setW rsv v) 2#4 s) ∧
  (∀ (v : Word) (s : State), s.fault = false → exec (.setW 0#24 v) s = .next { s with w := v }) ∧
  (∀ s, s.fault = false → s.sst = .idle → s.tv = true → s.w = 0#32 →
    FaultsWith (.chIhdr 0#24 0#32) 7#4 s)

/-- R172, SET_H: any word, with any SST and TV; a height of 0 is accepted and CH_IHDR then takes E_IHDR. -/
def Obligations.SetHWritesTheHeight : Prop :=
  (∀ v : Word, decode (0x39#8 ++ 0#24 ++ v) = .ok (.setH 0#24 v)) ∧
  (∀ rsv v s, s.fault = false → rsv ≠ 0#24 → FaultsWith (.setH rsv v) 2#4 s) ∧
  (∀ (v : Word) (s : State), s.fault = false → exec (.setH 0#24 v) s = .next { s with h := v }) ∧
  (∀ s, s.fault = false → s.sst = .idle → s.tv = true → s.h = 0#32 →
    FaultsWith (.chIhdr 0#24 0#32) 7#4 s)

/-- R173, SET_CT: any byte, with any SST and TV; a colour type other than 0 and 2 is accepted and CH_IHDR then takes
E_IHDR. -/
def Obligations.SetCtWritesTheColourType : Prop :=
  (∀ b : Byte, decode (0x3A#8 ++ 0#24 ++ 0#24 ++ b) = .ok (.setCt 0#24 (b.setWidth 32))) ∧
  (∀ rsv imm s, s.fault = false → (rsv ≠ 0#24 ∨ 256 ≤ imm.toNat) → FaultsWith (.setCt rsv imm) 2#4 s) ∧
  (∀ (b : Byte) s, s.fault = false → exec (.setCt 0#24 (b.setWidth 32)) s = .next { s with ct := b }) ∧
  (∀ s, s.fault = false → s.sst = .idle → s.tv = true → s.ct ≠ 0#8 → s.ct ≠ 2#8 →
    FaultsWith (.chIhdr 0#24 0#32) 7#4 s)

/-- R174 and R175, CH_IHDR: checks in order, the flattened effect, equal to the ten-command sequence, and the rule's
example. -/
def Obligations.ChIhdrEmitsTheHeaderChunk : Prop :=
  decode 0x3B00000000000000#64 = .ok (.chIhdr 0#24 0#32) ∧
  (∀ rsv imm s, s.fault = false → (rsv ≠ 0#24 ∨ imm ≠ 0#32) → FaultsWith (.chIhdr rsv imm) 2#4 s) ∧
  (∀ s, s.fault = false → s.sst ≠ .idle → FaultsWith (.chIhdr 0#24 0#32) 3#4 s) ∧
  (∀ s, s.fault = false → s.sst = .idle → s.tv = false → FaultsWith (.chIhdr 0#24 0#32) 4#4 s) ∧
  (∀ s, s.fault = false → s.sst = .idle → s.tv = true →
    (s.w = 0#32 ∨ s.h = 0#32 ∨ (s.ct ≠ 0#8 ∧ s.ct ≠ 2#8)) → FaultsWith (.chIhdr 0#24 0#32) 7#4 s) ∧
  (∀ (s : State) (d : List Byte) (a : Word), s.fault = false → s.sst = .idle → s.tv = true → s.w ≠ 0#32 →
    s.h ≠ 0#32 → (s.ct = 0#8 ∨ s.ct = 2#8) →
    d = [s.w.extractLsb' 24 8, s.w.extractLsb' 16 8, s.w.extractLsb' 8 8, s.w.extractLsb' 0 8,
      s.h.extractLsb' 24 8, s.h.extractLsb' 16 8, s.h.extractLsb' 8 8, s.h.extractLsb' 0 8,
      8#8, s.ct, 0#8, 0#8, 0#8] →
    a = updStar s.t 0xFFFFFFFF#32 ([0x49#8, 0x48#8, 0x44#8, 0x52#8] ++ d) →
    exec (.chIhdr 0#24 0#32) s = .next
      { s with
        out := s.out ++ ([0#8, 0#8, 0#8, 13#8, 0x49#8, 0x48#8, 0x44#8, 0x52#8] ++ d ++ be32 (a ^^^ 0xFFFFFFFF#32))
        outCnt := s.outCnt + 25#32
        acc := a
        len := 13#32
        rem := 0#32
        chunkType := 0x49484452#32
        result := a ^^^ 0xFFFFFFFF#32 } ∧
    exec (.chIhdr 0#24 0#32) s =
      execAll
        [.chLen 0#24 13#32, .chType 0#24 0x49484452#32, .chDataw 0#24 s.w, .chDataw 0#24 s.h, .chData 0#24 8#32,
          .chData 0#24 (s.ct.setWidth 32), .chData 0#24 0#32, .chData 0#24 0#32, .chData 0#24 0#32,
          .chEnd 0#24 0#32] s) ∧
  (∀ s, s.fault = false → s.sst = .idle → s.tv = true → (∀ n : Fin 256, s.t[n] = genEntry n) →
    s.w = 2#32 → s.h = 2#32 → s.ct = 0#8 →
    ∃ s', exec (.chIhdr 0#24 0#32) s = .next s' ∧
      s'.out = s.out ++ [0#8, 0#8, 0#8, 0x0D#8, 0x49#8, 0x48#8, 0x44#8, 0x52#8, 0#8, 0#8, 0#8, 2#8, 0#8, 0#8, 0#8,
        2#8, 8#8, 0#8, 0#8, 0#8, 0#8, 0x57#8, 0xDD#8, 0x52#8, 0xF8#8] ∧
      s'.result = 0x57DD52F8#32 ∧ s'.acc = 0xA822AD07#32)

/-- R176, CH_IEND: checks in order, the flattened effect, equal to the three-command sequence, and the rule's values. -/
def Obligations.ChIendEmitsTheEndChunk : Prop :=
  decode 0x3C00000000000000#64 = .ok (.chIend 0#24 0#32) ∧
  (∀ rsv imm s, s.fault = false → (rsv ≠ 0#24 ∨ imm ≠ 0#32) → FaultsWith (.chIend rsv imm) 2#4 s) ∧
  (∀ s, s.fault = false → s.sst ≠ .idle → FaultsWith (.chIend 0#24 0#32) 3#4 s) ∧
  (∀ s, s.fault = false → s.sst = .idle → s.tv = false → FaultsWith (.chIend 0#24 0#32) 4#4 s) ∧
  (∀ (s : State) (a : Word), s.fault = false → s.sst = .idle → s.tv = true →
    a = updStar s.t 0xFFFFFFFF#32 [0x49#8, 0x45#8, 0x4E#8, 0x44#8] →
    exec (.chIend 0#24 0#32) s = .next
      { s with
        out := s.out ++ ([0#8, 0#8, 0#8, 0#8, 0x49#8, 0x45#8, 0x4E#8, 0x44#8] ++ be32 (a ^^^ 0xFFFFFFFF#32))
        outCnt := s.outCnt + 12#32
        acc := a
        len := 0#32
        rem := 0#32
        chunkType := 0x49454E44#32
        result := a ^^^ 0xFFFFFFFF#32 } ∧
    exec (.chIend 0#24 0#32) s =
      execAll [.chLen 0#24 0#32, .chType 0#24 0x49454E44#32, .chEnd 0#24 0#32] s) ∧
  (∀ s, s.fault = false → s.sst = .idle → s.tv = true → (∀ n : Fin 256, s.t[n] = genEntry n) →
    ∃ s', exec (.chIend 0#24 0#32) s = .next s' ∧
      s'.out = s.out ++ [0#8, 0#8, 0#8, 0#8, 0x49#8, 0x45#8, 0x4E#8, 0x44#8, 0xAE#8, 0x42#8, 0x60#8, 0x82#8] ∧
      s'.acc = 0x51BD9F7D#32 ∧ s'.result = 0xAE426082#32)

/-- R190, NOP: no effect in any state, the fault state among them; any nonzero bit below OP faults, or is discarded
with FAULT = 1. -/
def Obligations.NopDoesNothing : Prop :=
  decode 0x0000000000000000#64 = .ok (.nop 0#24 0#32) ∧
  (∀ rsv imm s, s.fault = false → (rsv ≠ 0#24 ∨ imm ≠ 0#32) → FaultsWith (.nop rsv imm) 2#4 s) ∧
  (∀ s, exec (.nop 0#24 0#32) s = .next s) ∧
  (∀ rsv imm s, s.fault = true → (rsv ≠ 0#24 ∨ imm ≠ 0#32) → exec (.nop rsv imm) s = .next s)

/-- R191, SRST: the reset values in any state, the fault state among them, T and OUT kept; a malformed SRST faults, or
is discarded with FAULT = 1; no other command leaves the fault state; the port is closed to it while BUSY = 1. The host's pending actions, the model's own field (log entry 1), stay. -/
def Obligations.SrstResetsTheBlock : Prop :=
  decode 0x0100000000000000#64 = .ok (.srst 0#24 0#32) ∧
  (∀ rsv imm s, s.fault = false → (rsv ≠ 0#24 ∨ imm ≠ 0#32) → FaultsWith (.srst rsv imm) 2#4 s) ∧
  (∀ s, exec (.srst 0#24 0#32) s =
    .next { State.reset with t := s.t, out := s.out, hostActs := s.hostActs }) ∧
  (∀ rsv imm s, s.fault = true → (rsv ≠ 0#24 ∨ imm ≠ 0#32) → exec (.srst rsv imm) s = .next s) ∧
  (∀ s s', exec (.srst 0#24 0#32) s = .next s' →
    statusPort s' = 0#32 ∧ s'.acc = 0xFFFFFFFF#32 ∧ s'.result = 0#32 ∧ s'.tv = false) ∧
  (∀ i s s', s.fault = true → exec i s = .next s' → s'.fault = false → i = .srst 0#24 0#32) ∧
  (∀ s : State, s.busy = true → portReady s = false)

/-- R192 and R42, REG_RD: the twelve selectors, in any state, the fault state among them; every other selector faults,
or is discarded with FAULT = 1. -/
def Obligations.RegRdReadsTheSelectedRegister : Prop :=
  (∀ sel : Word, decode (0x02#8 ++ 0#24 ++ sel) = .ok (.regRd 0#24 sel)) ∧
  (∀ rsv sel s, s.fault = false → (rsv ≠ 0#24 ∨ 12 ≤ sel.toNat) → FaultsWith (.regRd rsv sel) 2#4 s) ∧
  (∀ rsv sel s, s.fault = true → (rsv ≠ 0#24 ∨ 12 ≤ sel.toNat) → exec (.regRd rsv sel) s = .next s) ∧
  (∀ s,
    exec (.regRd 0#24 0#32) s = .next { s with result := s.acc } ∧
    exec (.regRd 0#24 1#32) s = .next { s with result := s.len } ∧
    exec (.regRd 0#24 2#32) s = .next { s with result := s.rem } ∧
    exec (.regRd 0#24 3#32) s = .next { s with result := s.chunkType } ∧
    exec (.regRd 0#24 4#32) s = .next { s with result := s.w } ∧
    exec (.regRd 0#24 5#32) s = .next { s with result := s.h } ∧
    exec (.regRd 0#24 6#32) s = .next { s with result := s.ct.setWidth 32 } ∧
    exec (.regRd 0#24 7#32) s = .next { s with result := 0xEDB88320#32 } ∧
    exec (.regRd 0#24 8#32) s = .next { s with result := s.errHi } ∧
    exec (.regRd 0#24 9#32) s = .next { s with result := s.errLo } ∧
    exec (.regRd 0#24 10#32) s = .next { s with result := s.outCnt } ∧
    exec (.regRd 0#24 11#32) s = .next { s with result := statusPort s })

/-! ### Reset -/

/-- R47 and R233: the power-on state holds the reset value of every register over the draw POWER_ON_TABLE and an empty
OUT, and SRST gives those values, with T and OUT as they were. The host's pending actions, the model's own field, are
left out of it (log entry 1). -/
def Obligations.ResetGivesTheStatedValues : Prop :=
  State.reset =
    { t := Vector.ofFn fun n : Fin 256 => Config.powerOnTable n.val
      tv := false, busy := false, genN := 0, genK := 0, genC := 0#32
      acc := 0xFFFFFFFF#32, result := 0#32
      sst := .idle, len := 0#32, rem := 0#32, chunkType := 0#32
      w := 0#32, h := 0#32, ct := 0#8
      fault := false, err := 0#4, errHi := 0#32, errLo := 0#32
      outCnt := 0#32, out := [], hostActs := State.reset.hostActs } ∧
  statusPort State.reset = 0#32 ∧
  (∀ s : State, exec (.srst 0#24 0#32) s =
    .next { State.reset with t := s.t, out := s.out, hostActs := s.hostActs }) ∧
  exec (.crcFinal 0#24 0#32) State.reset = .next { State.reset with result := 0#32 }

/-- R230 and R231: the reset input acts at any time, also while BUSY = 1, and as SRST does; after it the block is idle,
has no valid table and no fault, and its port is ready. The list of host actions is the model's own (log entry 1). -/
def Obligations.ResetInputActsAtAnyTime : Prop :=
  ∀ (s : State) (rest : List HostAction), s.hostActs = .resetInput :: rest →
    step s = .next { State.reset with t := s.t, out := s.out, hostActs := rest } ∧
    step s = exec (.srst 0#24 0#32) { s with hostActs := rest } ∧
    ∀ s', step s = .next s' →
      statusPort s' = 0#32 ∧ s'.sst = .idle ∧ s'.acc = 0xFFFFFFFF#32 ∧ portReady s' = true

/-- R232: a reset k steps into a generation stops it at once; the entries finished by then hold gen_entry and the rest
hold what they held before. That T stays as it stands at the reset is what R232 states first; it
leaves another T open too (log entry 10), and the list of host actions is the model's own (log entry 1). -/
def Obligations.ResetStopsARunningGeneration : Prop :=
  ∀ (s : State) (k : Nat), s.busy = false → s.fault = false → s.sst = .idle → k < 2048 →
    ∃ t : Table,
      runSteps (k + 2)
        { s with hostActs := .offer 0x1000000000000000#64 :: List.replicate k .idle ++ [.resetInput] }
        = .next { State.reset with t := t, out := s.out } ∧
      ∀ n : Fin 256, t[n] = if n.val < k / 8 then genEntry n else s.t[n]

/-! ### Faults -/

/-- R206: in the fault state a valid SRST resets, a valid REG_RD writes RESULT, and every other word, illegal opcodes
among them, changes nothing. -/
def Obligations.FaultStateDiscardsEverythingElse : Prop :=
  (∀ i s, s.fault = true → exec i s = .next (faultFilter i s)) ∧
  (∀ word e s, s.fault = true → decode word = .error e → execute word s = .next s)

/-- R202 and R203: a word is checked in the fixed order and the first failing check decides the fault; where every
check passes the command completes and takes no fault; with FAULT = 1 the filter of R206 decides. -/
def Obligations.EarliestFailingCheckDecidesTheFault : Prop :=
  (∀ i s, s.fault = false → predictedFault i s ≠ 0#4 → FaultsWith i (predictedFault i s) s) ∧
  (∀ i s, s.fault = false → predictedFault i s = 0#4 → ∃ s', exec i s = .next s' ∧ s'.fault = false) ∧
  (∀ word e s, s.fault = false → decode word = .error e →
    execute word s = .next
      { s with fault := true, err := 1#4, errHi := word.extractLsb' 32 32, errLo := word.extractLsb' 0 32 }) ∧
  (∀ i s, s.fault = true → exec i s = .next (faultFilter i s))

/-- R204 and R205: an accepted word that takes a fault changes FAULT, ERR, ERRHI and ERRLO alone, to a code of R200 and
the two halves of that very word. -/
def Obligations.FaultsArePrecise : Prop :=
  ∀ (word : CmdWord) (s s' : State), s.fault = false → execute word s = .next s' → s'.fault = true →
    ∃ code : BitVec 4, 1 ≤ code.toNat ∧ code.toNat ≤ 7 ∧
      s' = { s with
        fault := true
        err := code
        errHi := word.extractLsb' 32 32
        errLo := word.extractLsb' 0 32 }

/-- R207: only a reset leaves the fault state, and it loses the table, the open chunk and the accumulator; until then no
second fault is taken. -/
def Obligations.OnlyAResetLeavesTheFaultState : Prop :=
  ∀ s s' : State, step s = .next s' → s.fault = true →
    (s'.fault = false → ResetStep s ∧ s'.tv = false ∧ s'.sst = .idle ∧ s'.acc = 0xFFFFFFFF#32) ∧
    (s'.fault = true → s'.err = s.err ∧ s'.errHi = s.errHi ∧ s'.errLo = s.errLo)

/-- R206 and R238: from the fault state, a step that is not a reset changes nothing of the block but RESULT, and RESULT
only by an accepted REG_RD; so nothing further is emitted until a reset. -/
def Obligations.FaultStateHoldsUntilAReset : Prop :=
  ∀ s s' : State, StateInv s → s.fault = true → step s = .next s' → ¬ ResetStep s →
    s' = { s with result := s'.result, hostActs := s'.hostActs } ∧
      (s'.result ≠ s.result → ∃ sel, Accepts s (.regRd 0#24 sel) ∧ regview sel s = some s'.result)

/-- R201: no step stops the block, and only an accepted command can enter the fault state: a generator step, a reset and
a quiet step never do. -/
def Obligations.NoStepStopsTheBlock : Prop :=
  (∀ s : State, ∃ s', step s = .next s') ∧
  (∀ s s' : State, step s = .next s' → s.fault = false → s'.fault = true →
    ∃ word rest, s.hostActs = .offer word :: rest ∧ s.busy = false)

/-! ### Invariants -/

/-- The invariants of R46 hold in the power-on state. -/
def Obligations.PowerOnStateMeetsTheInvariants : Prop := StateInv State.reset

/-- Every step from every state that meets the invariants of R46 keeps them. -/
def Obligations.EveryStepKeepsTheInvariants : Prop :=
  ∀ s s' : State, StateInv s → step s = .next s' → StateInv s'

/-- R46: its eight invariants in every state reachable from power-on, whatever the host does. -/
def Obligations.ReachableStatesMeetTheEightInvariants : Prop :=
  ∀ s : State, Reachable s →
    (s.fault = false ↔ s.err = 0#4) ∧
    (s.busy = true → s.tv = false ∧ s.sst = .idle ∧ s.fault = false) ∧
    (s.sst ≠ .idle → s.tv = true) ∧
    (s.sst = .idle → s.rem = 0#32) ∧
    (s.sst = .type → s.rem = s.len) ∧
    s.rem.toNat ≤ s.len.toNat ∧
    (s.sst.bits ≠ 3#2 ∧ s.err.toNat ≤ 7) ∧
    (s.tv = true → ∀ n : Fin 256, s.t[n] = genEntry n)

/-! ### Rules of the whole machine -/

/-- R61, R62 and R37: OUT only grows, at its end; OUTCNT grows by the number of bytes emitted modulo 2^32, and is
zeroed only by a reset, which emits nothing. -/
def Obligations.OutputIsNeverRetractedAndIsCounted : Prop :=
  ∀ s s' : State, step s = .next s' →
    ∃ bs : List Byte, s'.out = s.out ++ bs ∧
      (s'.outCnt = s.outCnt + BitVec.ofNat 32 bs.length ∨ (ResetStep s ∧ bs = [] ∧ s'.outCnt = 0#32))

/-- R240: the bytes a completed command emits; a faulting or discarded one emits none. -/
def Obligations.EveryCommandEmitsItsByteCount : Prop :=
  (∀ i s s', s.fault = false → exec i s = .next s' → s'.fault = false →
    s'.out.length = s.out.length + emittedCount i) ∧
  (∀ i s s', (s.fault = true ∨ s'.fault = true) → exec i s = .next s' → s'.out = s.out)

/-- R25: a step that changes RESULT is a reset or accepts one of the six commands that write it, no step that enters the
fault state changes it, and the result port shows it. -/
def Obligations.OnlySixCommandsWriteResult : Prop :=
  (∀ s s' : State, step s = .next s' → s'.result ≠ s.result →
    ResetStep s ∨ ∃ i, Accepts s i ∧ writesResult i = true) ∧
  (∀ s s' : State, step s = .next s' → s.fault = false → s'.fault = true → s'.result = s.result) ∧
  (∀ s : State, resultPort s = s.result)

/-- R24: a step that changes ACC is a reset or accepts one of the eight commands that write it. -/
def Obligations.OnlyEightCommandsWriteAcc : Prop :=
  ∀ s s' : State, step s = .next s' → s'.acc ≠ s.acc → ResetStep s ∨ ∃ i, Accepts s i ∧ writesAcc i = true

/-- R26 to R29: which steps can change SST, LEN, REM and TYPE. -/
def Obligations.FramerRegistersHaveTheirWriters : Prop :=
  ∀ s s' : State, step s = .next s' →
    (s'.sst ≠ s.sst → ResetStep s ∨ ∃ i, Accepts s i ∧ writesSst i = true) ∧
    (s'.len ≠ s.len → ResetStep s ∨ ∃ i, Accepts s i ∧ writesLen i = true) ∧
    (s'.rem ≠ s.rem → ResetStep s ∨ ∃ i, Accepts s i ∧ writesRem i = true) ∧
    (s'.chunkType ≠ s.chunkType → ResetStep s ∨ ∃ i, Accepts s i ∧ writesType i = true)

/-- R21, R22 and R30 to R32: T changes only in a generator step; TV only by TBL_GEN, a generator step or a reset; W, H
and CT only by SET_W, SET_H and SET_CT or a reset. -/
def Obligations.TableAndParameterRegistersHaveTheirWriters : Prop :=
  ∀ s s' : State, step s = .next s' →
    (s'.t ≠ s.t → s.busy = true ∧ ¬ ResetStep s) ∧
    (s'.tv ≠ s.tv → ResetStep s ∨ Accepts s (.tblGen 0#24 0#32) ∨ s.busy = true) ∧
    (s'.w ≠ s.w → ResetStep s ∨ Accepts s (.setW 0#24 s'.w)) ∧
    (s'.h ≠ s.h → ResetStep s ∨ Accepts s (.setH 0#24 s'.h)) ∧
    (s'.ct ≠ s.ct → ResetStep s ∨ Accepts s (.setCt 0#24 (s'.ct.setWidth 32)))

/-- R39: every bit of STATUS, and its value after reset. -/
def Obligations.StatusHasTheStatedLayout : Prop :=
  (∀ s : State,
    (statusPort s).getLsbD 0 = s.busy ∧
    (statusPort s).getLsbD 1 = s.tv ∧
    (statusPort s).getLsbD 2 = s.fault ∧
    (statusPort s).getLsbD 3 = false ∧
    (statusPort s).extractLsb' 4 4 = s.err ∧
    (statusPort s).extractLsb' 8 2 = (match s.sst with | .idle => 0#2 | .type => 1#2 | .data => 2#2) ∧
    ∀ k, 10 ≤ k → (statusPort s).getLsbD k = false) ∧
  statusPort State.reset = 0#32

/-- R8: POWER_ON_TABLE is never observable. Two states that agree on everything but the unfilled part of T, the first
keeping R46's invariants, step to two states that agree so again, and the ports, OUT, every REG_RD value and the
observation of R241 are the same in both. -/
def Obligations.PowerOnTableIsNeverObservable : Prop :=
  (∀ s₁ s₂ s₁' : State, StateInv s₁ → AgreeButForHiddenTable s₁ s₂ → step s₁ = .next s₁' →
    ∃ s₂', step s₂ = .next s₂' ∧ AgreeButForHiddenTable s₁' s₂') ∧
  (∀ s₁ s₂ : State, AgreeButForHiddenTable s₁ s₂ →
    statusPort s₁ = statusPort s₂ ∧ resultPort s₁ = resultPort s₂ ∧ s₁.out = s₂.out ∧
      (∀ sel, regview sel s₁ = regview sel s₂) ∧ ∀ s₀ : State, observe s₀ s₁ = observe s₀ s₂) ∧
  (∀ (t : Table) (acts : List HostAction),
    AgreeButForHiddenTable { State.reset with hostActs := acts } { State.reset with t := t, hostActs := acts })

/-- R241: a run of a host program ends: every word is accepted, and BUSY = 0, after at most 2049 steps a word. This
rests on the sink that always accepts (R239, log entry 4), and is about the model's steps. The program is placed in the
model's list of host actions from outside (log entries 1 and 2). -/
def Obligations.EveryHostProgramRunEnds : Prop :=
  ∀ (ws : List CmdWord) (s : State), s.busy = false →
    ∃ (k : Nat) (s' : State), k ≤ 2049 * ws.length ∧ runSteps k (loadProgram ws s) = .next s' ∧ Ended s'

/-! ### The assembler -/

/-- R90: the exact expansions of the six pseudo-instructions. R90 lists b0 to bk, at least one operand; the clauses for
CRC_BYTES, CH_BYTES and PNG_IDAT take in the empty list too, where the expansion is the model's choice (log entry 14,
DESIGN CHOICE). -/
def Obligations.PseudoInstructionsExpandExactly : Prop :=
  (∀ n tag, expand ⟨"CHUNK", [n, .text tag]⟩ = .ok [⟨"CH_LEN", [n]⟩, ⟨"CH_TYPE", [.text tag]⟩]) ∧
  (∀ cs, expand ⟨"CRC_STR", [.text cs]⟩ = .ok (cs.map fun c => ⟨"CRC_BYTE", [.char c]⟩)) ∧
  (∀ bs, expand ⟨"CRC_BYTES", bs⟩ = .ok (bs.map fun b => ⟨"CRC_BYTE", [b]⟩)) ∧
  (∀ bs, expand ⟨"CH_BYTES", bs⟩ = .ok (bs.map fun b => ⟨"CH_DATA", [b]⟩)) ∧
  (∀ w h ct, expand ⟨"PNG_HEAD", [w, h, ct]⟩ =
    .ok [⟨"SIG", []⟩, ⟨"SET_W", [w]⟩, ⟨"SET_H", [h]⟩, ⟨"SET_CT", [ct]⟩, ⟨"CH_IHDR", []⟩]) ∧
  (∀ bs, expand ⟨"PNG_IDAT", bs⟩ =
    .ok ([⟨"CH_LEN", [.number bs.length]⟩, ⟨"CH_TYPE", [.text ['I', 'D', 'A', 'T']]⟩]
      ++ bs.map (fun b => ⟨"CH_DATA", [b]⟩) ++ [⟨"CH_END", []⟩]))

/-- R89: what the assembler accepts is a valid command, with RSV = 0. -/
def Obligations.AssembledCommandsAreValid : Prop :=
  ∀ (line : AsmLine) (i : Instr), assembleCommand line = .ok i → WellFormed i = true ∧ i.fields.1 = 0#24
end

