-- ==== Sys2Proof/Laws/Operands.lean ====
section
/-! SUPPORT. What the fields of a word and the operand functions give: the fields of an assembled word, the operand check
by class, the byte operand, the bytes of a word. -/

namespace Sys2Proof

/-- The bits of an assembled word: IMM below 32, RSV below 56, OP above (R80). -/
theorem getLsbD_commandWord (op : BitVec 8) (rsv : Rsv) (imm : Word) (i : Nat) :
    (commandWord op rsv imm).getLsbD i =
      if i < 32 then imm.getLsbD i else if i < 56 then rsv.getLsbD (i - 32) else op.getLsbD (i - 56) := by
  show BitVec.getLsbD (w := 8 + 24 + 32) (op ++ rsv ++ imm) i = _
  rw [BitVec.getLsbD_append, BitVec.getLsbD_append]
  rcases Nat.lt_or_ge i 32 with h | h
  · simp [h]
  · rcases Nat.lt_or_ge i 56 with h' | h'
    · have : i - 32 < 24 := by omega
      simp [Nat.not_lt.mpr h, h', this]
    · have h₁ : ¬ i - 32 < 24 := by omega
      have h₂ : i - 32 - 24 = i - 56 := by omega
      simp [Nat.not_lt.mpr h, Nat.not_lt.mpr h', h₁, h₂]

/-- OP of an assembled word (R80). -/
@[simp] theorem opField_commandWord (op : BitVec 8) (rsv : Rsv) (imm : Word) :
    opField (commandWord op rsv imm) = op := by
  ext i hi
  have h₁ : ¬ 56 + i < 32 := by omega
  have h₂ : ¬ 56 + i < 56 := by omega
  simp [opField, getLsbD_commandWord, hi, h₁, h₂]

/-- RSV of an assembled word (R80). -/
@[simp] theorem rsvField_commandWord (op : BitVec 8) (rsv : Rsv) (imm : Word) :
    rsvField (commandWord op rsv imm) = rsv := by
  ext i hi
  have h₁ : ¬ 32 + i < 32 := by omega
  have h₂ : 32 + i < 56 := by omega
  simp [rsvField, getLsbD_commandWord, hi, h₁, h₂]

/-- IMM of an assembled word (R80). -/
@[simp] theorem immField_commandWord (op : BitVec 8) (rsv : Rsv) (imm : Word) :
    immField (commandWord op rsv imm) = imm := by
  ext i hi
  simp [immField, getLsbD_commandWord, hi]

/-- A word is its three fields (R80). -/
theorem commandWord_fields (w : CmdWord) : commandWord (opField w) (rsvField w) (immField w) = w := by
  apply BitVec.eq_of_getLsbD_eq
  intro i hi
  rw [getLsbD_commandWord]
  split
  · simp_all [immField]
  · split
    · have h₁ : i - 32 < 24 := by omega
      have h₂ : 32 + (i - 32) = i := by omega
      simp [rsvField, h₁, h₂]
    · have h₁ : i - 56 < 8 := by omega
      have h₂ : 56 + (i - 56) = i := by omega
      simp [opField, h₁, h₂]

/-- An assembled word decodes by its fields (R88). -/
@[simp] theorem decode_commandWord (op : BitVec 8) (rsv : Rsv) (imm : Word) :
    decode (commandWord op rsv imm) = decodeFields op rsv imm := by
  simp [decode]

/-- The three fields side by side are the assembled word (R80). -/
theorem append_eq_commandWord (op : BitVec 8) (rsv : Rsv) (imm : Word) :
    (op ++ rsv ++ imm : CmdWord) = commandWord op rsv imm := rfl

/-- Bits 63:32 of an assembled word are OP and RSV (R35, R80). -/
theorem commandWord_hi (op : BitVec 8) (rsv : Rsv) (imm : Word) :
    (commandWord op rsv imm).extractLsb' 32 32 = op ++ rsv := by
  ext i hi
  show _ = BitVec.getLsbD (w := 8 + 24) (op ++ rsv) i
  have h₁ : ¬ 32 + i < 32 := by omega
  have h₂ : 32 + i - 32 = i := by omega
  have h₃ : 32 + i - 56 = i - 24 := by omega
  rw [BitVec.getLsbD_append]
  simp only [BitVec.getElem_extractLsb', getLsbD_commandWord, h₁, h₂, h₃, if_false]
  by_cases h : i < 24
  · have h₄ : 32 + i < 56 := by omega
    simp [h, h₄]
  · have h₄ : ¬ 32 + i < 56 := by omega
    simp [h, h₄]

/-- Bits 31:0 of an assembled word are IMM (R36, R80). -/
theorem commandWord_lo (op : BitVec 8) (rsv : Rsv) (imm : Word) :
    (commandWord op rsv imm).extractLsb' 0 32 = imm := immField_commandWord op rsv imm

namespace Machine

/-- Class N: the check passes exactly on RSV = 0 and IMM = 0. -/
theorem operandLegal_none (rsv : Rsv) (imm : Word) : wfNone rsv imm = operandLegal .n rsv imm := rfl

/-- Class B: the check passes exactly on RSV = 0 and an IMM below 256. -/
theorem operandLegal_byte (rsv : Rsv) (imm : Word) : wfByte rsv imm = operandLegal .b rsv imm := by
  have h : (imm.extractLsb' 8 24 = 0#24) ↔ imm.toNat < 256 := by
    rw [← BitVec.toNat_inj, BitVec.extractLsb'_toNat, Nat.shiftRight_eq_div_pow]
    have := imm.isLt
    simp only [BitVec.toNat_ofNat]
    omega
  have h' : (imm.extractLsb' 8 24 == 0#24) = decide (imm.toNat < 256) := by
    rw [Bool.eq_iff_iff]; simpa using h
  simp only [wfByte, operandLegal, immLegal, h']

/-- Class W: the check passes exactly on RSV = 0. -/
theorem operandLegal_word (rsv : Rsv) (imm : Word) : wfWord rsv imm = operandLegal .w rsv imm := by
  simp [wfWord, operandLegal, immLegal]

/-- Class S: the check passes exactly on RSV = 0 and a selector up to 11. -/
theorem operandLegal_sel (rsv : Rsv) (imm : Word) : wfSel rsv imm = operandLegal .s rsv imm := rfl

/-- A byte, zero-extended to IMM, is the byte operand (R81). -/
@[simp] theorem byteOperand_zeroExtend (b : Byte) : byteOperand (b.setWidth 32) = b := by
  ext i hi; simp [byteOperand, hi]; intro; omega

/-- A zero-extended byte is a legal IMM of class B. -/
@[simp] theorem immLegal_zeroExtend (b : Byte) : immLegal .b (b.setWidth 32) = true := by
  simp only [immLegal, beq_iff_eq]
  ext i hi; simp

/-- A word as bytes is four bytes (R65). -/
@[simp] theorem be32_length (v : Word) : (be32 v).length = 4 := rfl

/-- A legal selector has a register (R42). -/
theorem regview_isSome (sel : Word) (s : State) (h : sel.toNat ≤ 11) : (regview sel s).isSome := by
  unfold regview
  generalize sel.toNat = k at h
  interval_cases k <;> rfl

end Machine

end Sys2Proof
end

