-- ==== Sys2Proof/Laws/State.lean ====
section
/-! SUPPORT. One lemma per field and shared update of State, each true by rfl, so that no proof unfolds an update. -/

namespace Sys2Proof.Machine

/-! ### raiseFault: A fault writes FAULT, ERR, ERRHI, ERRLO (R204) and leaves the rest (R205). -/

@[simp] theorem raiseFault_t (code : FaultCode) (word : CmdWord) (s : State) : (raiseFault code word s).t = s.t := rfl
@[simp] theorem raiseFault_tv (code : FaultCode) (word : CmdWord) (s : State) : (raiseFault code word s).tv = s.tv := rfl
@[simp] theorem raiseFault_busy (code : FaultCode) (word : CmdWord) (s : State) : (raiseFault code word s).busy = s.busy := rfl
@[simp] theorem raiseFault_genN (code : FaultCode) (word : CmdWord) (s : State) : (raiseFault code word s).genN = s.genN := rfl
@[simp] theorem raiseFault_genK (code : FaultCode) (word : CmdWord) (s : State) : (raiseFault code word s).genK = s.genK := rfl
@[simp] theorem raiseFault_genC (code : FaultCode) (word : CmdWord) (s : State) : (raiseFault code word s).genC = s.genC := rfl
@[simp] theorem raiseFault_acc (code : FaultCode) (word : CmdWord) (s : State) : (raiseFault code word s).acc = s.acc := rfl
@[simp] theorem raiseFault_result (code : FaultCode) (word : CmdWord) (s : State) : (raiseFault code word s).result = s.result := rfl
@[simp] theorem raiseFault_sst (code : FaultCode) (word : CmdWord) (s : State) : (raiseFault code word s).sst = s.sst := rfl
@[simp] theorem raiseFault_len (code : FaultCode) (word : CmdWord) (s : State) : (raiseFault code word s).len = s.len := rfl
@[simp] theorem raiseFault_rem (code : FaultCode) (word : CmdWord) (s : State) : (raiseFault code word s).rem = s.rem := rfl
@[simp] theorem raiseFault_chunkType (code : FaultCode) (word : CmdWord) (s : State) : (raiseFault code word s).chunkType = s.chunkType := rfl
@[simp] theorem raiseFault_w (code : FaultCode) (word : CmdWord) (s : State) : (raiseFault code word s).w = s.w := rfl
@[simp] theorem raiseFault_h (code : FaultCode) (word : CmdWord) (s : State) : (raiseFault code word s).h = s.h := rfl
@[simp] theorem raiseFault_ct (code : FaultCode) (word : CmdWord) (s : State) : (raiseFault code word s).ct = s.ct := rfl
@[simp] theorem raiseFault_fault (code : FaultCode) (word : CmdWord) (s : State) : (raiseFault code word s).fault = true := rfl
@[simp] theorem raiseFault_err (code : FaultCode) (word : CmdWord) (s : State) : (raiseFault code word s).err = code.bits := rfl
@[simp] theorem raiseFault_errHi (code : FaultCode) (word : CmdWord) (s : State) : (raiseFault code word s).errHi = word.extractLsb' 32 32 := rfl
@[simp] theorem raiseFault_errLo (code : FaultCode) (word : CmdWord) (s : State) : (raiseFault code word s).errLo = word.extractLsb' 0 32 := rfl
@[simp] theorem raiseFault_outCnt (code : FaultCode) (word : CmdWord) (s : State) : (raiseFault code word s).outCnt = s.outCnt := rfl
@[simp] theorem raiseFault_out (code : FaultCode) (word : CmdWord) (s : State) : (raiseFault code word s).out = s.out := rfl
@[simp] theorem raiseFault_hostActs (code : FaultCode) (word : CmdWord) (s : State) : (raiseFault code word s).hostActs = s.hostActs := rfl

/-! ### resetState: `reset_state()` field by field: the values of R47; T, OUT and the host's actions stay (R231). -/

@[simp] theorem resetState_t (s : State) : (resetState s).t = s.t := rfl
@[simp] theorem resetState_tv (s : State) : (resetState s).tv = false := rfl
@[simp] theorem resetState_busy (s : State) : (resetState s).busy = false := rfl
@[simp] theorem resetState_genN (s : State) : (resetState s).genN = 0 := rfl
@[simp] theorem resetState_genK (s : State) : (resetState s).genK = 0 := rfl
@[simp] theorem resetState_genC (s : State) : (resetState s).genC = 0#32 := rfl
@[simp] theorem resetState_acc (s : State) : (resetState s).acc = initAcc := rfl
@[simp] theorem resetState_result (s : State) : (resetState s).result = 0#32 := rfl
@[simp] theorem resetState_sst (s : State) : (resetState s).sst = .idle := rfl
@[simp] theorem resetState_len (s : State) : (resetState s).len = 0#32 := rfl
@[simp] theorem resetState_rem (s : State) : (resetState s).rem = 0#32 := rfl
@[simp] theorem resetState_chunkType (s : State) : (resetState s).chunkType = 0#32 := rfl
@[simp] theorem resetState_w (s : State) : (resetState s).w = 0#32 := rfl
@[simp] theorem resetState_h (s : State) : (resetState s).h = 0#32 := rfl
@[simp] theorem resetState_ct (s : State) : (resetState s).ct = 0#8 := rfl
@[simp] theorem resetState_fault (s : State) : (resetState s).fault = false := rfl
@[simp] theorem resetState_err (s : State) : (resetState s).err = 0#4 := rfl
@[simp] theorem resetState_errHi (s : State) : (resetState s).errHi = 0#32 := rfl
@[simp] theorem resetState_errLo (s : State) : (resetState s).errLo = 0#32 := rfl
@[simp] theorem resetState_outCnt (s : State) : (resetState s).outCnt = 0#32 := rfl
@[simp] theorem resetState_out (s : State) : (resetState s).out = s.out := rfl
@[simp] theorem resetState_hostActs (s : State) : (resetState s).hostActs = s.hostActs := rfl

/-! ### startGen: TBL_GEN writes five fields (R101). -/

@[simp] theorem startGen_t (s : State) : (startGen s).t = s.t := rfl
@[simp] theorem startGen_tv (s : State) : (startGen s).tv = false := rfl
@[simp] theorem startGen_busy (s : State) : (startGen s).busy = true := rfl
@[simp] theorem startGen_genN (s : State) : (startGen s).genN = 0 := rfl
@[simp] theorem startGen_genK (s : State) : (startGen s).genK = 0 := rfl
@[simp] theorem startGen_genC (s : State) : (startGen s).genC = 0#32 := rfl
@[simp] theorem startGen_acc (s : State) : (startGen s).acc = s.acc := rfl
@[simp] theorem startGen_result (s : State) : (startGen s).result = s.result := rfl
@[simp] theorem startGen_sst (s : State) : (startGen s).sst = s.sst := rfl
@[simp] theorem startGen_len (s : State) : (startGen s).len = s.len := rfl
@[simp] theorem startGen_rem (s : State) : (startGen s).rem = s.rem := rfl
@[simp] theorem startGen_chunkType (s : State) : (startGen s).chunkType = s.chunkType := rfl
@[simp] theorem startGen_w (s : State) : (startGen s).w = s.w := rfl
@[simp] theorem startGen_h (s : State) : (startGen s).h = s.h := rfl
@[simp] theorem startGen_ct (s : State) : (startGen s).ct = s.ct := rfl
@[simp] theorem startGen_fault (s : State) : (startGen s).fault = s.fault := rfl
@[simp] theorem startGen_err (s : State) : (startGen s).err = s.err := rfl
@[simp] theorem startGen_errHi (s : State) : (startGen s).errHi = s.errHi := rfl
@[simp] theorem startGen_errLo (s : State) : (startGen s).errLo = s.errLo := rfl
@[simp] theorem startGen_outCnt (s : State) : (startGen s).outCnt = s.outCnt := rfl
@[simp] theorem startGen_out (s : State) : (startGen s).out = s.out := rfl
@[simp] theorem startGen_hostActs (s : State) : (startGen s).hostActs = s.hostActs := rfl

/-! ### completeGen: `complete_gen` writes three fields (R103). -/

@[simp] theorem completeGen_t (s : State) : (completeGen s).t = s.t := rfl
@[simp] theorem completeGen_tv (s : State) : (completeGen s).tv = true := rfl
@[simp] theorem completeGen_busy (s : State) : (completeGen s).busy = false := rfl
@[simp] theorem completeGen_genN (s : State) : (completeGen s).genN = s.genN := rfl
@[simp] theorem completeGen_genK (s : State) : (completeGen s).genK = s.genK := rfl
@[simp] theorem completeGen_genC (s : State) : (completeGen s).genC = 0#32 := rfl
@[simp] theorem completeGen_acc (s : State) : (completeGen s).acc = s.acc := rfl
@[simp] theorem completeGen_result (s : State) : (completeGen s).result = s.result := rfl
@[simp] theorem completeGen_sst (s : State) : (completeGen s).sst = s.sst := rfl
@[simp] theorem completeGen_len (s : State) : (completeGen s).len = s.len := rfl
@[simp] theorem completeGen_rem (s : State) : (completeGen s).rem = s.rem := rfl
@[simp] theorem completeGen_chunkType (s : State) : (completeGen s).chunkType = s.chunkType := rfl
@[simp] theorem completeGen_w (s : State) : (completeGen s).w = s.w := rfl
@[simp] theorem completeGen_h (s : State) : (completeGen s).h = s.h := rfl
@[simp] theorem completeGen_ct (s : State) : (completeGen s).ct = s.ct := rfl
@[simp] theorem completeGen_fault (s : State) : (completeGen s).fault = s.fault := rfl
@[simp] theorem completeGen_err (s : State) : (completeGen s).err = s.err := rfl
@[simp] theorem completeGen_errHi (s : State) : (completeGen s).errHi = s.errHi := rfl
@[simp] theorem completeGen_errLo (s : State) : (completeGen s).errLo = s.errLo := rfl
@[simp] theorem completeGen_outCnt (s : State) : (completeGen s).outCnt = s.outCnt := rfl
@[simp] theorem completeGen_out (s : State) : (completeGen s).out = s.out := rfl
@[simp] theorem completeGen_hostActs (s : State) : (completeGen s).hostActs = s.hostActs := rfl

/-! ### offerNext: Placing a word readies the port and changes the host's actions alone (log entry 2). -/

@[simp] theorem offerNext_t (word : CmdWord) (s : State) : (offerNext word s).t = s.t := rfl
@[simp] theorem offerNext_tv (word : CmdWord) (s : State) : (offerNext word s).tv = s.tv := rfl
@[simp] theorem offerNext_busy (word : CmdWord) (s : State) : (offerNext word s).busy = false := rfl
@[simp] theorem offerNext_genN (word : CmdWord) (s : State) : (offerNext word s).genN = s.genN := rfl
@[simp] theorem offerNext_genK (word : CmdWord) (s : State) : (offerNext word s).genK = s.genK := rfl
@[simp] theorem offerNext_genC (word : CmdWord) (s : State) : (offerNext word s).genC = s.genC := rfl
@[simp] theorem offerNext_acc (word : CmdWord) (s : State) : (offerNext word s).acc = s.acc := rfl
@[simp] theorem offerNext_result (word : CmdWord) (s : State) : (offerNext word s).result = s.result := rfl
@[simp] theorem offerNext_sst (word : CmdWord) (s : State) : (offerNext word s).sst = s.sst := rfl
@[simp] theorem offerNext_len (word : CmdWord) (s : State) : (offerNext word s).len = s.len := rfl
@[simp] theorem offerNext_rem (word : CmdWord) (s : State) : (offerNext word s).rem = s.rem := rfl
@[simp] theorem offerNext_chunkType (word : CmdWord) (s : State) : (offerNext word s).chunkType = s.chunkType := rfl
@[simp] theorem offerNext_w (word : CmdWord) (s : State) : (offerNext word s).w = s.w := rfl
@[simp] theorem offerNext_h (word : CmdWord) (s : State) : (offerNext word s).h = s.h := rfl
@[simp] theorem offerNext_ct (word : CmdWord) (s : State) : (offerNext word s).ct = s.ct := rfl
@[simp] theorem offerNext_fault (word : CmdWord) (s : State) : (offerNext word s).fault = s.fault := rfl
@[simp] theorem offerNext_err (word : CmdWord) (s : State) : (offerNext word s).err = s.err := rfl
@[simp] theorem offerNext_errHi (word : CmdWord) (s : State) : (offerNext word s).errHi = s.errHi := rfl
@[simp] theorem offerNext_errLo (word : CmdWord) (s : State) : (offerNext word s).errLo = s.errLo := rfl
@[simp] theorem offerNext_outCnt (word : CmdWord) (s : State) : (offerNext word s).outCnt = s.outCnt := rfl
@[simp] theorem offerNext_out (word : CmdWord) (s : State) : (offerNext word s).out = s.out := rfl
@[simp] theorem offerNext_hostActs (word : CmdWord) (s : State) : (offerNext word s).hostActs = .offer word :: s.hostActs := rfl

end Sys2Proof.Machine
end

