-- ==== Sys2Proof/Laws/Ops.lean ====
section
/-! SUPPORT. One lemma per shared operation that says everything it can do; proofs cite these and do not unfold. -/

namespace Sys2Proof.Machine

/-- `Emit` appends the bytes to OUT, adds their number to OUTCNT modulo 2^32, and does nothing else (R62). -/
theorem emit_eq (bs : List Byte) (s : State) :
    emit bs s = { s with out := s.out ++ bs, outCnt := s.outCnt + BitVec.ofNat 32 bs.length } := by
  induction bs generalizing s with
  | nil => simp [emit]
  | cons b bs ih =>
    simp only [emit, ih, List.append_assoc, List.singleton_append, List.length_cons]
    congr 1
    rw [Nat.add_comm bs.length 1, BitVec.ofNat_add, BitVec.add_assoc]

/-- Two emissions are one of both byte sequences (R62, R66). -/
theorem emit_append (as bs : List Byte) (s : State) : emit (as ++ bs) s = emit bs (emit as s) := by
  induction as generalizing s with
  | nil => rfl
  | cons a as ih => exact ih _

/-- The reduce over a concatenation is one reduce after the other (R120). -/
theorem updStar_append (t : Table) (a : Word) (as bs : List Byte) :
    updStar t a (as ++ bs) = updStar t (updStar t a as) bs := by
  induction as generalizing a with
  | nil => rfl
  | cons b as ih => exact ih _

/-- An iteration may be taken last as well as first (R100). -/
theorem bitsteps_succ (k : Nat) (c : Word) : bitsteps (k + 1) c = bitstep (bitsteps k c) := by
  induction k generalizing c with
  | zero => rfl
  | succ k ih => exact ih _

/-- Entry n of the valid table (R100, R103). -/
@[simp] theorem genTable_getElem (n : Nat) (h : n < 256) : genTable[n] = genEntry n := by
  simp [genTable]

/-- A generator step that does not finish an entry (R102). -/
theorem stepGen_inside (s : State) (h : s.genK ≠ 7) :
    stepGen s = { s with genK := s.genK + 1, genC := bitstep s.genC } := by
  simp [stepGen, h]

/-- A generator step that finishes an entry other than the last (R102). -/
theorem stepGen_entry (s : State) (h : s.genK = 7) (hn : s.genN + 1 ≠ 256) :
    stepGen s = { s with
      t := tableWrite s.t s.genN (bitstep s.genC), genN := s.genN + 1, genK := 0,
      genC := BitVec.ofNat 32 (s.genN + 1) } := by
  simp [stepGen, h, hn]

/-- The last generator step (R102, R103). -/
theorem stepGen_last (s : State) (h : s.genK = 7) (hn : s.genN + 1 = 256) :
    stepGen s = { s with
      t := tableWrite s.t s.genN (bitstep s.genC), genN := 256, genK := 0, genC := 0#32, busy := false,
      tv := true } := by
  simp [stepGen, completeGen, h, hn]

/-- What a command that the fault state discards can do: be discarded, fault, or be performed (R203, R206). -/
theorem runGuarded_cases (i : Instr) (n : Needs) (further : State → Option FaultCode) (perform : State → State)
    (s : State) :
    (s.fault = true ∧ runGuarded i n further perform s = .next s) ∨
    (∃ code, s.fault = false ∧ firstFailure n i.fields.1 i.fields.2 further s = some code ∧
      runGuarded i n further perform s = .next (raiseFault code (encode i) s)) ∨
    (s.fault = false ∧ firstFailure n i.fields.1 i.fields.2 further s = none ∧
      runGuarded i n further perform s = .next (perform s)) := by
  cases hf : s.fault with
  | true => exact .inl ⟨rfl, by simp [runGuarded, hf]⟩
  | false =>
    cases hc : firstFailure n i.fields.1 i.fields.2 further s with
    | some code => exact .inr (.inl ⟨code, rfl, rfl, by simp [runGuarded, hf, hc]⟩)
    | none => exact .inr (.inr ⟨rfl, rfl, by simp [runGuarded, hf, hc]⟩)

/-- What NOP, SRST or REG_RD can do: be performed, be discarded, or fault (R203, R206). -/
theorem runAlways_cases (i : Instr) (c : OpClass) (perform : State → State) (s : State) :
    (operandLegal c i.fields.1 i.fields.2 = true ∧ runAlways i c perform s = .next (perform s)) ∨
    (operandLegal c i.fields.1 i.fields.2 = false ∧ s.fault = true ∧ runAlways i c perform s = .next s) ∨
    (operandLegal c i.fields.1 i.fields.2 = false ∧ s.fault = false ∧
      runAlways i c perform s = .next (raiseFault .operand (encode i) s)) := by
  cases h : operandLegal c i.fields.1 i.fields.2 with
  | true => exact .inl ⟨rfl, by simp [runAlways, h]⟩
  | false => cases hf : s.fault <;> simp [runAlways, h, hf]

/-- Every check passes exactly when the operand is legal, SST and TV are as required, and the further check passes
(R202, R203). -/
theorem firstFailure_none (n : Needs) (rsv : Rsv) (imm : Word) (further : State → Option FaultCode) (s : State) :
    firstFailure n rsv imm further s = none ↔
      operandLegal n.opClass rsv imm = true ∧ (n.sst = none ∨ n.sst = some s.sst) ∧
        (n.table = true → s.tv = true) ∧ further s = none := by
  unfold firstFailure
  cases operandLegal n.opClass rsv imm <;> cases hs : n.sst <;> cases n.table <;> cases s.tv <;>
    simp <;> split <;> simp_all

/-- The four kinds of step, by what the host does next and BUSY (R87, R215, R230, R235). -/
theorem step_cases (s : State) :
    (∃ rest, s.hostActs = .resetInput :: rest ∧ step s = .next (resetState { s with hostActs := rest })) ∨
    (∃ acts, s.busy = true ∧ step s = .next (stepGen { s with hostActs := acts })) ∨
    (∃ word rest, s.hostActs = .offer word :: rest ∧ s.busy = false ∧
      step s = execute word { s with hostActs := rest }) ∨
    (∃ acts, s.busy = false ∧ step s = .next { s with hostActs := acts }) := by
  rcases s with ⟨t, tv, busy, genN, genK, genC, acc, result, sst, len, rem, chunkType, w, h, ct, fault, err, errHi,
    errLo, outCnt, out, hostActs⟩
  rcases hostActs with _ | ⟨_ | _ | _, rest⟩ <;> cases busy <;>
    simp [step, nextActivity, undisturbed, portReady] <;> exact ⟨_, rfl⟩

end Sys2Proof.Machine
end

