-- ==== Sys2Proof/Laws/PerInstr.lean ====
section
/-! SUPPORT. Family OperandCheck: a command is well-formed exactly when the machine's operand check passes on its two
fields (R81, R82 of spec/30_encoding.md). -/

namespace Sys2Proof.Laws.OperandCheck

open Sys2Proof.Machine

/-- The valid commands of the syntax are those whose operand check passes. -/
def Statement (i : Instr) : Prop := WellFormed i = operandLegal i.opClass i.fields.1 i.fields.2

theorem nop (rsv : Rsv) (imm : Word) : Statement (.nop rsv imm) := operandLegal_none rsv imm

theorem srst (rsv : Rsv) (imm : Word) : Statement (.srst rsv imm) := operandLegal_none rsv imm

theorem regRd (rsv : Rsv) (imm : Word) : Statement (.regRd rsv imm) := operandLegal_sel rsv imm

theorem tblGen (rsv : Rsv) (imm : Word) : Statement (.tblGen rsv imm) := operandLegal_none rsv imm

theorem tblRd (rsv : Rsv) (imm : Word) : Statement (.tblRd rsv imm) := operandLegal_byte rsv imm

theorem crcInit (rsv : Rsv) (imm : Word) : Statement (.crcInit rsv imm) := operandLegal_none rsv imm

theorem crcByte (rsv : Rsv) (imm : Word) : Statement (.crcByte rsv imm) := operandLegal_byte rsv imm

theorem crcWord (rsv : Rsv) (imm : Word) : Statement (.crcWord rsv imm) := operandLegal_word rsv imm

theorem crcFinal (rsv : Rsv) (imm : Word) : Statement (.crcFinal rsv imm) := operandLegal_none rsv imm

theorem sig (rsv : Rsv) (imm : Word) : Statement (.sig rsv imm) := operandLegal_none rsv imm

theorem chLen (rsv : Rsv) (imm : Word) : Statement (.chLen rsv imm) := operandLegal_word rsv imm

theorem chType (rsv : Rsv) (imm : Word) : Statement (.chType rsv imm) := operandLegal_word rsv imm

theorem chData (rsv : Rsv) (imm : Word) : Statement (.chData rsv imm) := operandLegal_byte rsv imm

theorem chDataw (rsv : Rsv) (imm : Word) : Statement (.chDataw rsv imm) := operandLegal_word rsv imm

theorem chEnd (rsv : Rsv) (imm : Word) : Statement (.chEnd rsv imm) := operandLegal_none rsv imm

theorem setW (rsv : Rsv) (imm : Word) : Statement (.setW rsv imm) := operandLegal_word rsv imm

theorem setH (rsv : Rsv) (imm : Word) : Statement (.setH rsv imm) := operandLegal_word rsv imm

theorem setCt (rsv : Rsv) (imm : Word) : Statement (.setCt rsv imm) := operandLegal_byte rsv imm

theorem chIhdr (rsv : Rsv) (imm : Word) : Statement (.chIhdr rsv imm) := operandLegal_none rsv imm

theorem chIend (rsv : Rsv) (imm : Word) : Statement (.chIend rsv imm) := operandLegal_none rsv imm

end Sys2Proof.Laws.OperandCheck
end

