-- ==== Sys2Proof/Laws/Run.lean ====
section
/-! SUPPORT. Runs: `runSteps` is the host's run of this machine, and runs compose. -/

namespace Sys2Proof.Machine

/-- One step, then the rest of the run. -/
theorem runSteps_succ (k : Nat) (s s' : State) (h : step s = .next s') : runSteps (k + 1) s = runSteps k s' := by
  simp [runSteps, h]

/-- A run of `m + n` steps is a run of `m` and then one of `n`. -/
theorem runSteps_add (m n : Nat) (s s' : State) (h : runSteps m s = .next s') :
    runSteps (m + n) s = runSteps n s' := by
  induction m generalizing s with
  | zero => cases h; simp
  | succ m ih =>
    rw [Nat.add_right_comm]
    simp only [runSteps] at h ⊢
    split at h
    · exact ih _ h
    · cases h
    · cases h

/-- One step of a host run that goes on. -/
theorem hostRun_next (M : Host.Core) (k : Nat) (s s' : M.State) (h : M.step s = .next s') :
    M.run (k + 1) s = M.run k s' := by
  simp [Host.Core.run, h]

/-- One step of a host run that is refused. -/
theorem hostRun_refused (M : Host.Core) (k : Nat) (s : M.State) (r : M.Refusal) (h : M.step s = .refused r) :
    M.run (k + 1) s = .refused r := by
  simp [Host.Core.run, h]

/-- `runSteps` is `Host.Core.run` on this machine. -/
theorem runSteps_eq_run : ∀ (k : Nat) (s : State), Host.Core.run Sys2Proof.core k s = runSteps k s
  | 0, _ => rfl
  | k + 1, s => by
    cases h : step s with
    | next s' => exact (hostRun_next core k s s' h).trans ((runSteps_eq_run k s').trans (runSteps_succ k s s' h).symm)
    | fault r => exact nomatch r
    | refused r =>
      have h' : runSteps (k + 1) s = .refused r := by simp [runSteps, h]
      exact (hostRun_refused core k s r h).trans h'.symm

/-- Commands in sequence: the first, then the rest. -/
theorem execAll_cons (i : Instr) (is : List Instr) (s s' : State) (h : exec i s = .next s') :
    execAll (i :: is) s = execAll is s' := by
  simp [execAll, h]

/-- Two lists of commands in sequence. -/
theorem execAll_append (is js : List Instr) (s s' : State) (h : execAll is s = .next s') :
    execAll (is ++ js) s = execAll js s' := by
  induction is generalizing s with
  | nil => cases h; rfl
  | cons i is ih =>
    simp only [List.cons_append, execAll] at h ⊢
    split at h
    · exact ih _ h
    · cases h
    · cases h

end Sys2Proof.Machine
end

