-- ==== Sys2Proof/Tests/Slice0.lean ====
section
/-! SUPPORT. The model's own tests. Expected values come from spec/95_test_vectors.md (the vector's name stands in the
docstring) or from the encoding tables of spec/30_encoding.md; none was taken from the model. `RS` and `GS` are the
start states of that file. The second half shows, for every obligation with hypotheses, a state that meets them. -/

namespace Sys2Proof.Tests

open Sys2Proof.Machine

-- One test after another: checked at once, each holds a thread and the package runs out of memory.
set_option Elab.async false

/-- GS: reset, then a complete table generation (TG7). -/
def gs : State := { State.reset with t := genTable, tv := true, genN := 256 }

/-- A chunk with its length field emitted, from GS. -/
def inType (n : Word) : State := { gs with sst := .type, len := n, rem := n }

/-- A chunk of length `n` with its type emitted and `r` data bytes to go, from GS. -/
def inData (n r : Word) : State := { gs with sst := .data, len := n, rem := r }

/-- The fault state of E8.1. -/
def faulted : State := { gs with fault := true, err := 3#4, errHi := 0x33000000#32, errLo := 1#32 }

/-- The generator `k` iterations into entry `n`, the entries before it done. -/
def generating (n k : Nat) : State :=
  { State.reset with t := genTable, busy := true, genN := n, genK := k, genC := bitsteps k (BitVec.ofNat 32 n) }

/-- The result is a next state with property `p`. -/
def reaches (r : Result) (p : State → Bool) : Bool :=
  match r with
  | .next s => p s
  | .fault _ => false
  | .refused _ => false

/-- The step that accepts `word` in `s` leads to a state with property `p`. -/
def accepts (word : CmdWord) (s : State) (p : State → Bool) : Bool :=
  reaches (step { s with hostActs := [.offer word] }) p

/-- The step that accepts `word` in `s` faults with this STATUS, and saves the word. -/
def faults (word : CmdWord) (s : State) (status : Word) : Bool :=
  accepts word s fun s' =>
    statusPort s' == status && s'.errHi == word.extractLsb' 32 32 && s'.errLo == word.extractLsb' 0 32 &&
      s'.out == s.out && s'.acc == s.acc && s'.result == s.result && s'.rem == s.rem

/-- What `reaches` says, as a proposition. -/
theorem reaches_spec (r : Result) (p : State → Bool) (h : reaches r p = true) : ∃ s, r = .next s ∧ p s = true := by
  cases r with
  | next s => exact ⟨s, rfl, h⟩
  | fault _ => cases h
  | refused _ => cases h

/-- A result found without a fault, as a proposition. -/
theorem completes (r : Result) (h : reaches r (fun s => !s.fault) = true) : ∃ s, r = .next s ∧ s.fault = false := by
  obtain ⟨s, hs, hf⟩ := reaches_spec r _ h
  exact ⟨s, hs, by simpa using hf⟩

theorem gs_table : ∀ n : Fin 256, gs.t[n] = genEntry n := fun n => genTable_getElem n.val n.isLt

/-! ### Well-formedness (R81, R82) -/


/-- an RSV other than 0 (R82). -/
theorem test_wf_rsv : WellFormed (.nop 1#24 0#32) = false ∧ WellFormed (.setW 0x800000#24 5#32) = false := by decide

/-- an operand of a class N command. -/
theorem test_wf_class_n : WellFormed (.chEnd 0#24 1#32) = false ∧ WellFormed (.chEnd 0#24 0#32) = true := by decide

/-- a byte of 256. -/
theorem test_wf_class_b : WellFormed (.chData 0#24 256#32) = false ∧ WellFormed (.chData 0#24 255#32) = true := by decide

/-- class W refuses nothing but RSV. -/
theorem test_wf_class_w : WellFormed (.crcWord 1#24 0#32) = false ∧ WellFormed (.crcWord 0#24 0xFFFFFFFF#32) = true := by decide

/-- a selector of 12. -/
theorem test_wf_class_s : WellFormed (.regRd 0#24 12#32) = false ∧ WellFormed (.regRd 0#24 11#32) = true := by decide

/-! ### Decoding: words written out from R80 and R83 -/

theorem test_decode_control :
    decode 0x0000000000000000#64 = .ok (.nop 0#24 0#32) ∧
    decode 0x0100000000000000#64 = .ok (.srst 0#24 0#32) ∧
    decode 0x020000000000000B#64 = .ok (.regRd 0#24 11#32) := by decide

theorem test_decode_table :
    decode 0x1000000000000000#64 = .ok (.tblGen 0#24 0#32) ∧
    decode 0x11000000000000FF#64 = .ok (.tblRd 0#24 255#32) := by decide

theorem test_decode_reduce :
    decode 0x2000000100000000#64 = .ok (.crcInit 1#24 0#32) ∧
    decode 0x2100000000000049#64 = .ok (.crcByte 0#24 0x49#32) ∧
    decode 0x2200000049454E44#64 = .ok (.crcWord 0#24 0x49454E44#32) ∧
    decode 0x2300000000000005#64 = .ok (.crcFinal 0#24 5#32) := by decide

theorem test_decode_framing :
    decode 0x3000000000000000#64 = .ok (.sig 0#24 0#32) ∧
    decode 0x310000000000000D#64 = .ok (.chLen 0#24 13#32) ∧
    decode 0x3200000049484452#64 = .ok (.chType 0#24 0x49484452#32) ∧
    decode 0x3300000000000100#64 = .ok (.chData 0#24 256#32) ∧
    decode 0x34000000DEADBEEF#64 = .ok (.chDataw 0#24 0xDEADBEEF#32) ∧
    decode 0x3500000000000000#64 = .ok (.chEnd 0#24 0#32) := by decide

theorem test_decode_png :
    decode 0x3800000000000002#64 = .ok (.setW 0#24 2#32) ∧
    decode 0x3900000000000002#64 = .ok (.setH 0#24 2#32) ∧
    decode 0x3A00000000000002#64 = .ok (.setCt 0#24 2#32) ∧
    decode 0x3B00000000000000#64 = .ok (.chIhdr 0#24 0#32) ∧
    decode 0x3C00001000000000#64 = .ok (.chIend 0x10#24 0#32) := by decide

/-- The bits of an encoding, one by one: OP 0x34 in bits 63:56, RSV in 55:32, IMM in 31:0 (R80). -/
theorem test_decode_bits :
    decode 0b0011010000000000000000000000000110000000000000000000000000000001#64 = .ok (.chDataw 1#24 0x80000001#32) := by
  decide

/-- The lowest unassigned OP, the gap in the 0x3_ group, the ends of the ranges of R84 (E2, E3, E4). -/
theorem test_decode_illegal :
    decode 0x0300000000000000#64 = .error (.illegalOpcode 0x03#8) ∧
    decode 0x3600000000000005#64 = .error (.illegalOpcode 0x36#8) ∧
    decode 0x3D00000000000000#64 = .error (.illegalOpcode 0x3D#8) ∧
    decode 0xFF12345600000000#64 = .error (.illegalOpcode 0xFF#8) := by decide

theorem test_encode :
    encode (.chIend 0x10#24 0#32) = 0x3C00001000000000#64 ∧ encode (.setCt 0#24 2#32) = 0x3A00000000000002#64 := by decide

theorem test_decodeTableWord :
    decodeTableWord 64 0x11000000000000FF = some (.tblRd 0#24 255#32) ∧ decodeTableWord 64 0x0300000000000000 = none ∧
    decodeTableWord 128 0 = none := by decide

theorem test_withFetchWord :
    reaches (step (State.reset.withFetchWord 64 0x3800000000000002)) (fun s => s.w == 2#32) = true ∧
    reaches (step ((generating 3 2).withFetchWord 64 0x0000000000000000)) (fun s => s.genK == 2) = true := by
  decide +kernel

/-! ### The CRC table and its generator (V-T, V-G) -/

/-- V-T, rows 0x00 to 0x78. -/
def tableRowsLow : List Word :=
  [0x00000000#32, 0x77073096#32, 0xEE0E612C#32, 0x990951BA#32, 0x076DC419#32, 0x706AF48F#32, 0xE963A535#32, 0x9E6495A3#32] ++
  [0x0EDB8832#32, 0x79DCB8A4#32, 0xE0D5E91E#32, 0x97D2D988#32, 0x09B64C2B#32, 0x7EB17CBD#32, 0xE7B82D07#32, 0x90BF1D91#32] ++
  [0x1DB71064#32, 0x6AB020F2#32, 0xF3B97148#32, 0x84BE41DE#32, 0x1ADAD47D#32, 0x6DDDE4EB#32, 0xF4D4B551#32, 0x83D385C7#32] ++
  [0x136C9856#32, 0x646BA8C0#32, 0xFD62F97A#32, 0x8A65C9EC#32, 0x14015C4F#32, 0x63066CD9#32, 0xFA0F3D63#32, 0x8D080DF5#32] ++
  [0x3B6E20C8#32, 0x4C69105E#32, 0xD56041E4#32, 0xA2677172#32, 0x3C03E4D1#32, 0x4B04D447#32, 0xD20D85FD#32, 0xA50AB56B#32] ++
  [0x35B5A8FA#32, 0x42B2986C#32, 0xDBBBC9D6#32, 0xACBCF940#32, 0x32D86CE3#32, 0x45DF5C75#32, 0xDCD60DCF#32, 0xABD13D59#32] ++
  [0x26D930AC#32, 0x51DE003A#32, 0xC8D75180#32, 0xBFD06116#32, 0x21B4F4B5#32, 0x56B3C423#32, 0xCFBA9599#32, 0xB8BDA50F#32] ++
  [0x2802B89E#32, 0x5F058808#32, 0xC60CD9B2#32, 0xB10BE924#32, 0x2F6F7C87#32, 0x58684C11#32, 0xC1611DAB#32, 0xB6662D3D#32] ++
  [0x76DC4190#32, 0x01DB7106#32, 0x98D220BC#32, 0xEFD5102A#32, 0x71B18589#32, 0x06B6B51F#32, 0x9FBFE4A5#32, 0xE8B8D433#32] ++
  [0x7807C9A2#32, 0x0F00F934#32, 0x9609A88E#32, 0xE10E9818#32, 0x7F6A0DBB#32, 0x086D3D2D#32, 0x91646C97#32, 0xE6635C01#32] ++
  [0x6B6B51F4#32, 0x1C6C6162#32, 0x856530D8#32, 0xF262004E#32, 0x6C0695ED#32, 0x1B01A57B#32, 0x8208F4C1#32, 0xF50FC457#32] ++
  [0x65B0D9C6#32, 0x12B7E950#32, 0x8BBEB8EA#32, 0xFCB9887C#32, 0x62DD1DDF#32, 0x15DA2D49#32, 0x8CD37CF3#32, 0xFBD44C65#32] ++
  [0x4DB26158#32, 0x3AB551CE#32, 0xA3BC0074#32, 0xD4BB30E2#32, 0x4ADFA541#32, 0x3DD895D7#32, 0xA4D1C46D#32, 0xD3D6F4FB#32] ++
  [0x4369E96A#32, 0x346ED9FC#32, 0xAD678846#32, 0xDA60B8D0#32, 0x44042D73#32, 0x33031DE5#32, 0xAA0A4C5F#32, 0xDD0D7CC9#32] ++
  [0x5005713C#32, 0x270241AA#32, 0xBE0B1010#32, 0xC90C2086#32, 0x5768B525#32, 0x206F85B3#32, 0xB966D409#32, 0xCE61E49F#32] ++
  [0x5EDEF90E#32, 0x29D9C998#32, 0xB0D09822#32, 0xC7D7A8B4#32, 0x59B33D17#32, 0x2EB40D81#32, 0xB7BD5C3B#32, 0xC0BA6CAD#32]

/-- V-T, rows 0x80 to 0xF8. -/
def tableRowsHigh : List Word :=
  [0xEDB88320#32, 0x9ABFB3B6#32, 0x03B6E20C#32, 0x74B1D29A#32, 0xEAD54739#32, 0x9DD277AF#32, 0x04DB2615#32, 0x73DC1683#32] ++
  [0xE3630B12#32, 0x94643B84#32, 0x0D6D6A3E#32, 0x7A6A5AA8#32, 0xE40ECF0B#32, 0x9309FF9D#32, 0x0A00AE27#32, 0x7D079EB1#32] ++
  [0xF00F9344#32, 0x8708A3D2#32, 0x1E01F268#32, 0x6906C2FE#32, 0xF762575D#32, 0x806567CB#32, 0x196C3671#32, 0x6E6B06E7#32] ++
  [0xFED41B76#32, 0x89D32BE0#32, 0x10DA7A5A#32, 0x67DD4ACC#32, 0xF9B9DF6F#32, 0x8EBEEFF9#32, 0x17B7BE43#32, 0x60B08ED5#32] ++
  [0xD6D6A3E8#32, 0xA1D1937E#32, 0x38D8C2C4#32, 0x4FDFF252#32, 0xD1BB67F1#32, 0xA6BC5767#32, 0x3FB506DD#32, 0x48B2364B#32] ++
  [0xD80D2BDA#32, 0xAF0A1B4C#32, 0x36034AF6#32, 0x41047A60#32, 0xDF60EFC3#32, 0xA867DF55#32, 0x316E8EEF#32, 0x4669BE79#32] ++
  [0xCB61B38C#32, 0xBC66831A#32, 0x256FD2A0#32, 0x5268E236#32, 0xCC0C7795#32, 0xBB0B4703#32, 0x220216B9#32, 0x5505262F#32] ++
  [0xC5BA3BBE#32, 0xB2BD0B28#32, 0x2BB45A92#32, 0x5CB36A04#32, 0xC2D7FFA7#32, 0xB5D0CF31#32, 0x2CD99E8B#32, 0x5BDEAE1D#32] ++
  [0x9B64C2B0#32, 0xEC63F226#32, 0x756AA39C#32, 0x026D930A#32, 0x9C0906A9#32, 0xEB0E363F#32, 0x72076785#32, 0x05005713#32] ++
  [0x95BF4A82#32, 0xE2B87A14#32, 0x7BB12BAE#32, 0x0CB61B38#32, 0x92D28E9B#32, 0xE5D5BE0D#32, 0x7CDCEFB7#32, 0x0BDBDF21#32] ++
  [0x86D3D2D4#32, 0xF1D4E242#32, 0x68DDB3F8#32, 0x1FDA836E#32, 0x81BE16CD#32, 0xF6B9265B#32, 0x6FB077E1#32, 0x18B74777#32] ++
  [0x88085AE6#32, 0xFF0F6A70#32, 0x66063BCA#32, 0x11010B5C#32, 0x8F659EFF#32, 0xF862AE69#32, 0x616BFFD3#32, 0x166CCF45#32] ++
  [0xA00AE278#32, 0xD70DD2EE#32, 0x4E048354#32, 0x3903B3C2#32, 0xA7672661#32, 0xD06016F7#32, 0x4969474D#32, 0x3E6E77DB#32] ++
  [0xAED16A4A#32, 0xD9D65ADC#32, 0x40DF0B66#32, 0x37D83BF0#32, 0xA9BCAE53#32, 0xDEBB9EC5#32, 0x47B2CF7F#32, 0x30B5FFE9#32] ++
  [0xBDBDF21C#32, 0xCABAC28A#32, 0x53B39330#32, 0x24B4A3A6#32, 0xBAD03605#32, 0xCDD70693#32, 0x54DE5729#32, 0x23D967BF#32] ++
  [0xB3667A2E#32, 0xC4614AB8#32, 0x5D681B02#32, 0x2A6F2B94#32, 0xB40BBE37#32, 0xC30C8EA1#32, 0x5A05DF1B#32, 0x2D02EF8D#32]

/-- V-T: every entry. -/
theorem test_table : (List.range 256).map genEntry = tableRowsLow ++ tableRowsHigh := by decide +kernel

/-- TG1. -/
theorem test_tblGen_starts :
    accepts 0x1000000000000000#64 State.reset (fun s =>
      statusPort s == 1#32 && !portReady s && s.genN == 0 && s.genK == 0 && s.genC == 0#32) = true := by decide +kernel

/-- TG16, TG17, TG18. -/
theorem test_tblGen_checks :
    faults 0x1000000000000000#64 (inType 0#32) 0x136#32 = true ∧ faults 0x1000000000000001#64 gs 0x26#32 = true ∧
    accepts 0x1000000000000000#64 gs (fun s => statusPort s == 1#32 && !s.tv) = true := by decide +kernel

/-- TG3: the step that finishes entry 0. -/
theorem test_generator_entry :
    reaches (step (generating 0 7)) (fun s => s.t[0] == 0#32 && s.genN == 1 && s.genK == 0 && s.genC == 1#32) = true := by
  decide +kernel

/-- TG4, TG6, TG7: bitstep(1); GEN_C before the last step; the last step. -/
theorem test_generator_last :
    (generating 1 1).genC = 0xEDB88320#32 ∧ (generating 255 7).genC = 0x5A05DF1A#32 ∧
    statusPort (generating 255 7) = 1#32 ∧
    reaches (step (generating 255 7)) (fun s =>
      s.t[255] == 0x2D02EF8D#32 && statusPort s == 2#32 && s.genN == 256 && s.genK == 0 && s.genC == 0#32) = true := by
  decide +kernel

/-- TG11, TG12, TG15. -/
theorem test_tblRd :
    accepts 0x1100000000000080#64 gs (fun s => s.result == 0xEDB88320#32) = true ∧
    accepts 0x11000000000000FF#64 gs (fun s => s.result == 0x2D02EF8D#32) = true ∧
    accepts 0x1100000000000003#64 (inType 0#32) (fun s => s.result == 0x990951BA#32) = true := by decide +kernel

/-- TG13, TG14. -/
theorem test_tblRd_checks :
    faults 0x1100000000000100#64 gs 0x26#32 = true ∧ faults 0x1100000000000001#64 State.reset 0x44#32 = true := by
  decide +kernel

/-! ### The reduce (V-C) -/

theorem test_upd :
    upd genTable 0x12345678#32 0x9A#8 = 0x4E16B702#32 ∧ upd genTable 0x80000000#32 0x00#8 = 0x00800000#32 ∧
    upd genTable 0xDEADBEEF#32 0xFF#8 = 0x1D69BDDA#32 ∧ upd genTable 0#32 0x80#8 = 0xEDB88320#32 := by decide +kernel

/-- "123456789" and "a". -/
theorem test_checksum :
    checksum [0x31#8, 0x32#8, 0x33#8, 0x34#8, 0x35#8, 0x36#8, 0x37#8, 0x38#8, 0x39#8] = 0xCBF43926#32 ∧
    checksum [0x61#8] = 0xE8B7BE43#32 := by decide +kernel

/-- CR8, CR12, CR16. -/
theorem test_crcInit :
    accepts 0x2000000000000000#64 { gs with acc := 0x22FDE946#32, result := 0xDD0216B9#32 }
      (fun s => s.acc == 0xFFFFFFFF#32 && s.result == 0xDD0216B9#32) = true ∧
    faults 0x2000000000000000#64 (inType 0#32) 0x136#32 = true ∧ faults 0x2000000100000000#64 gs 0x26#32 = true := by
  decide +kernel

/-- CR6, CR10, CR13, CR14. -/
theorem test_crcByte :
    accepts 0x2100000000000049#64 gs (fun s => s.acc == 0x22FDE946#32 && s.result == 0#32) = true ∧
    faults 0x2100000000000001#64 State.reset 0x44#32 = true ∧
    faults 0x2100000000000001#64 (inData 0#32 0#32) 0x236#32 = true ∧ faults 0x2100000000000100#64 gs 0x26#32 = true := by
  decide +kernel

/-- CR3, CR4, CR11. -/
theorem test_crcWord :
    accepts 0x2200000049454E44#64 gs (fun s => s.acc == 0x51BD9F7D#32) = true ∧
    accepts 0x2200000012345678#64 gs (fun s => s.acc == 0xB5F6F167#32) = true ∧
    faults 0x2200000000000001#64 State.reset 0x44#32 = true := by decide +kernel

/-- CR6, CR9, CR15, CR17. -/
theorem test_crcFinal :
    accepts 0x2300000000000000#64 { gs with acc := 0x22FDE946#32 }
      (fun s => s.result == 0xDD0216B9#32 && s.acc == 0x22FDE946#32) = true ∧
    accepts 0x2300000000000000#64 State.reset (fun s => s.result == 0#32) = true ∧
    faults 0x2300000000000005#64 gs 0x26#32 = true ∧
    accepts 0x2300000000000000#64 { inData 0xFFFFFFFF#32 0xFFFFFFFB#32 with acc := 0x82A43C29#32 }
      (fun s => s.result == 0x7D5BC3D6#32 && s.sst == .data && s.out == []) = true := by decide +kernel

/-! ### Chunk framing (V-F) -/

/-- F1.1, and F7's length, the largest. -/
theorem test_chLen :
    accepts 0x310000000000000D#64 gs (fun s =>
      s.out == [0#8, 0#8, 0#8, 13#8] && s.len == 13#32 && s.rem == 13#32 && s.outCnt == 4#32 &&
        statusPort s == 0x102#32) = true ∧
    accepts 0x31000000FFFFFFFF#64 gs (fun s => s.len == 0xFFFFFFFF#32 && s.rem == 0xFFFFFFFF#32) = true := by
  decide +kernel

/-- F15, F17. -/
theorem test_chLen_checks :
    faults 0x3100000000000000#64 (inType 0#32) 0x136#32 = true ∧
    faults 0x3100000000000000#64 State.reset 0x44#32 = true := by decide +kernel

/-- F1.2, F8. -/
theorem test_chType :
    accepts 0x3200000049484452#64 (inType 13#32) (fun s =>
      s.out == [0x49#8, 0x48#8, 0x44#8, 0x52#8] && s.chunkType == 0x49484452#32 && s.acc == 0x575E51F5#32 &&
        statusPort s == 0x202#32) = true ∧
    accepts 0x3200000000000001#64 (inType 0#32) (fun s => s.acc == 0xA9BC1075#32 && s.chunkType == 1#32) = true := by
  decide +kernel

/-- F12, E6: the state check comes before the table check. -/
theorem test_chType_checks :
    faults 0x3200000049444154#64 gs 0x36#32 = true ∧ faults 0x3200000000000001#64 State.reset 0x34#32 = true := by
  decide +kernel

/-- F3: ACC before the byte is that of "IDAT" (V-C). -/
theorem test_chData :
    accepts 0x33000000000000AB#64 { inData 1#32 1#32 with acc := 0xCA50F9E1#32 } (fun s =>
      s.out == [0xAB#8] && s.acc == 0x96C3F877#32 && s.rem == 0#32 && s.outCnt == 1#32) = true := by decide +kernel

/-- F10, F13, F18. -/
theorem test_chData_checks :
    faults 0x3300000000000002#64 (inData 1#32 0#32) 0x256#32 = true ∧
    faults 0x3300000000000001#64 gs 0x36#32 = true ∧ faults 0x3300000000000100#64 gs 0x26#32 = true := by
  decide +kernel

/-- F1.3, F7. -/
theorem test_chDataw :
    accepts 0x3400000000000002#64 { inData 13#32 13#32 with acc := 0x575E51F5#32 } (fun s =>
      s.out == [0#8, 0#8, 0#8, 2#8] && s.acc == 0xE3FF77B3#32 && s.rem == 9#32 && s.outCnt == 4#32) = true ∧
    accepts 0x3400000001020304#64 (inData 0xFFFFFFFF#32 0xFFFFFFFF#32) (fun s =>
      s.out == [1#8, 2#8, 3#8, 4#8] && s.rem == 0xFFFFFFFB#32 && s.len == 0xFFFFFFFF#32) = true := by decide +kernel

/-- F9, E5. -/
theorem test_chDataw_checks :
    faults 0x3400000011223344#64 (inData 3#32 3#32) 0x256#32 = true ∧
    faults 0x3400000100000001#64 State.reset 0x24#32 = true := by decide +kernel

/-- F1.10. -/
theorem test_chEnd :
    accepts 0x3500000000000000#64 { inData 13#32 0#32 with acc := 0xA822AD07#32 } (fun s =>
      s.out == [0x57#8, 0xDD#8, 0x52#8, 0xF8#8] && s.result == 0x57DD52F8#32 && s.acc == 0xA822AD07#32 &&
        statusPort s == 2#32) = true := by decide +kernel

/-- F11, F14, F16, F19. -/
theorem test_chEnd_checks :
    faults 0x3500000000000000#64 (inData 2#32 1#32) 0x266#32 = true ∧
    faults 0x3500000000000000#64 gs 0x36#32 = true ∧
    faults 0x3500000000000000#64 (inType 0#32) 0x136#32 = true ∧ faults 0x3500000000000001#64 gs 0x26#32 = true := by
  decide +kernel

/-! ### PNG-specific emitters (V-P) -/

/-- PN1, PN16. -/
theorem test_sig :
    accepts 0x3000000000000000#64 State.reset (fun s =>
      s.out == [0x89#8, 0x50#8, 0x4E#8, 0x47#8, 0x0D#8, 0x0A#8, 0x1A#8, 0x0A#8] && s.outCnt == 8#32) = true ∧
    faults 0x3000000000000000#64 (inType 0#32) 0x136#32 = true := by decide +kernel

/-- PN2, PN7. -/
theorem test_set :
    accepts 0x3800000000000007#64 (inType 0#32) (fun s => s.w == 7#32 && s.sst == .type) = true ∧
    accepts 0x3900000000000002#64 gs (fun s => s.h == 2#32 && s.w == 0#32) = true ∧
    accepts 0x3A00000000000002#64 gs (fun s => s.ct == 2#8) = true ∧
    faults 0x3A00000000000100#64 gs 0x26#32 = true := by decide +kernel

/-- PN4. -/
theorem test_chIhdr :
    accepts 0x3B00000000000000#64 { gs with w := 1#32, h := 1#32, ct := 2#8 } (fun s =>
      s.out == [0#8, 0#8, 0#8, 0x0D#8, 0x49#8, 0x48#8, 0x44#8, 0x52#8, 0#8, 0#8, 0#8, 1#8, 0#8, 0#8, 0#8, 1#8,
        8#8, 2#8, 0#8, 0#8, 0#8, 0x90#8, 0x77#8, 0x53#8, 0xDE#8] &&
      s.result == 0x907753DE#32 && s.acc == 0x6F88AC21#32 && s.len == 13#32 && s.rem == 0#32 &&
      s.chunkType == 0x49484452#32 && s.sst == .idle && s.outCnt == 25#32) = true := by decide +kernel

/-- PN8, PN9, PN10, PN13. -/
theorem test_chIhdr_checks :
    faults 0x3B00000000000000#64 gs 0x76#32 = true ∧
    faults 0x3B00000000000000#64 { gs with w := 2#32 } 0x76#32 = true ∧
    faults 0x3B00000000000000#64 { gs with w := 2#32, h := 2#32, ct := 3#8 } 0x76#32 = true ∧
    faults 0x3B00000000000000#64 { State.reset with w := 2#32, h := 2#32 } 0x44#32 = true := by decide +kernel

/-- PN6, CR18. -/
theorem test_chIend :
    accepts 0x3C00000000000000#64 { gs with acc := 0x340BC6D9#32 } (fun s =>
      s.out == [0#8, 0#8, 0#8, 0#8, 0x49#8, 0x45#8, 0x4E#8, 0x44#8, 0xAE#8, 0x42#8, 0x60#8, 0x82#8] &&
      s.result == 0xAE426082#32 && s.acc == 0x51BD9F7D#32 && s.chunkType == 0x49454E44#32 && s.len == 0#32 &&
      s.outCnt == 12#32) = true := by decide +kernel

/-- PN14, PN15, PN17. -/
theorem test_chIend_checks :
    faults 0x3C00000000000000#64 State.reset 0x44#32 = true ∧
    faults 0x3C00000000000000#64 (inType 0#32) 0x136#32 = true ∧
    faults 0x3C00001000000000#64 gs 0x26#32 = true := by decide +kernel

/-! ### Control, faults and the fault state (V-K, V-E) -/

/-- K1, K2. -/
theorem test_nop :
    accepts 0x0000000000000000#64 gs (fun s => statusPort s == 2#32 && s.acc == gs.acc) = true ∧
    faults 0x0000000000000001#64 gs 0x26#32 = true := by decide +kernel

/-- K3, K4, K5. -/
theorem test_regRd :
    accepts 0x0200000000000007#64 gs (fun s => s.result == 0xEDB88320#32) = true ∧
    accepts 0x020000000000000B#64 gs (fun s => s.result == 2#32) = true ∧
    faults 0x020000000000000C#64 gs 0x26#32 = true := by decide +kernel

/-- The reset values read back from RS. -/
theorem test_regRd_reset :
    (List.range 12).map (fun k => regview (BitVec.ofNat 32 k) State.reset) =
      [some 0xFFFFFFFF#32, some 0#32, some 0#32, some 0#32, some 0#32, some 0#32, some 0#32, some 0xEDB88320#32,
        some 0#32, some 0#32, some 0#32, some 0#32] := by decide +kernel

/-- K6, K7: the table contents stay, hidden. -/
theorem test_srst :
    accepts 0x0100000000000000#64 { gs with out := [7#8], outCnt := 1#32 } (fun s =>
      statusPort s == 0#32 && s.t[1] == 0x77073096#32 && s.out == [7#8] && s.outCnt == 0#32) = true ∧
    faults 0x0100000100000000#64 gs 0x26#32 = true := by decide +kernel

/-- E1, E2, E4, E7: the earliest failing check decides. -/
theorem test_priority :
    faults 0x3B00000000000000#64 (inData 0#32 0#32) 0x236#32 = true ∧
    faults 0xFF12345600000000#64 gs 0x16#32 = true ∧ faults 0x3600000000000005#64 gs 0x16#32 = true ∧
    faults 0x3100000000000000#64 State.reset 0x44#32 = true := by decide +kernel

/-- E8.2 to E8.6: discarded. -/
theorem test_discarded :
    ([0x3000000000000000#64, 0xFF00000000000000#64, 0x0000000000000001#64, 0x020000000000000C#64,
        0x0100000000000001#64].all fun word =>
      accepts word faulted fun s =>
        statusPort s == 0x36#32 && s.errHi == 0x33000000#32 && s.errLo == 1#32 && s.out == [] && s.outCnt == 0#32 &&
          s.result == 0#32) = true := by decide +kernel

/-- E8.8, E8.9, E8.10, E8.11: performed. -/
theorem test_fault_state_performs :
    accepts 0x0200000000000008#64 faulted (fun s => s.result == 0x33000000#32) = true ∧
    accepts 0x0200000000000009#64 faulted (fun s => s.result == 1#32) = true ∧
    accepts 0x020000000000000B#64 faulted (fun s => s.result == 0x36#32) = true ∧
    accepts 0x0100000000000000#64 faulted (fun s => statusPort s == 0#32 && s.result == 0#32 && !s.tv) = true := by
  decide +kernel

/-- R87, R230: a word waits while BUSY = 1; the reset input does not. -/
theorem test_port_while_busy :
    reaches (step { generating 2 0 with hostActs := [.offer 0x3000000000000000#64] }) (fun s =>
      s.out == [] && s.genK == 1 && s.hostActs == [.offer 0x3000000000000000#64]) = true ∧
    reaches (step { generating 2 0 with hostActs := [.resetInput] }) (fun s =>
      statusPort s == 0#32 && portReady s && s.t[1] == 0x77073096#32) = true := by decide +kernel

/-! ### The assembler (R89, R90) -/

/-- P1, P3 and R89's operand forms. -/
theorem test_assembler :
    assembleText "CRC_STR \"IEND\"  ; four bytes".toList =
      .ok [0x2100000000000049#64, 0x2100000000000045#64, 0x210000000000004E#64, 0x2100000000000044#64] ∧
    assembleText "CHUNK 2, \"IDAT\"".toList = .ok [0x3100000000000002#64, 0x3200000049444154#64] ∧
    assembleText "CRC_BYTE '9'".toList = .ok [0x2100000000000039#64] ∧
    assembleText "CH_DATAW 0xDEADBEEF".toList = .ok [0x34000000DEADBEEF#64] ∧
    assembleText "  ; nothing".toList = .ok [] := by decide +kernel

/-- R89's quoted character and R90's strings, with the readings of log entry 14: a quotation mark, an apostrophe or a
semicolon may be the quoted character, wherever it stands; a string holds no quotation mark. -/
theorem test_assembler_quotations :
    assembleText "CRC_BYTE ''' ; apostrophe".toList = .ok [0x2100000000000027#64] ∧
    assembleText "CRC_BYTES ''', ';', ',', '\"'".toList =
      .ok [0x2100000000000027#64, 0x210000000000003B#64, 0x210000000000002C#64, 0x2100000000000022#64] ∧
    assembleText "CRC_STR \";'\" ; text".toList = .ok [0x210000000000003B#64, 0x2100000000000027#64] ∧
    assembleText "CRC_STR \"a\"b\"".toList = .error .malformed := by decide +kernel

/-- A number above the class's range, a three-character type, an unknown name, an operand too many. -/
theorem test_assembler_refuses :
    assembleText "CH_DATA 256".toList = .error .tooLarge ∧
    assembleText "CH_TYPE \"IDA\"".toList = .error .notFourCharacters ∧
    assembleText "JUMP 1".toList = .error .unknownMnemonic ∧
    assembleText "SIG 1".toList = .error .wrongOperands := by decide +kernel

/-! ### Witnesses: states that meet the hypotheses of the obligations -/

/-- GS meets the invariants of R46. -/
theorem gs_inv : StateInv gs where
  faultErr := by decide
  busyAlone := fun h => by cases h
  openHasTable := fun _ => rfl
  idleRem := fun _ => rfl
  typeRem := fun h => by cases h
  remLeLen := by decide
  errRange := by decide
  tableValid := fun _ => gs_table
  genRange := by decide
  genProgress := fun h => by cases h

/-- So does an open chunk of length 1 with its length field emitted. -/
theorem inType_inv : StateInv (inType 1#32) where
  faultErr := by decide
  busyAlone := fun h => by cases h
  openHasTable := fun _ => rfl
  idleRem := fun h => by cases h
  typeRem := fun _ => rfl
  remLeLen := by decide
  errRange := by decide
  tableValid := fun _ => gs_table
  genRange := by decide
  genProgress := fun h => by cases h

/-- And the generator at the first step of its last entry and of its first. -/
theorem generating_inv : StateInv (generating 255 0) ∧ StateInv (generating 0 0) := by
  constructor <;>
  exact {
    faultErr := by decide
    busyAlone := fun _ => ⟨rfl, rfl, rfl⟩
    openHasTable := fun h => absurd rfl h
    idleRem := fun _ => rfl
    typeRem := fun h => by cases h
    remLeLen := by decide
    errRange := by decide
    tableValid := fun h => by cases h
    genRange := by decide
    genProgress := fun _ => ⟨by decide, rfl, fun n _ => gs_table n⟩ }

/-- A state that accepts `word` next. -/
def offered (word : CmdWord) (s : State) : State := { s with hostActs := [.offer word] }

/-- The boundary values of R84's list, and a neighbour that is assigned. -/
theorem test_witness_IllegalOpcodesAreExactlyThoseListed :
    [0x03, 0x0F, 0x12, 0x1F, 0x24, 0x2F, 0x36, 0x37, 0x3D, 0xFF].all illegalOpcodeValue = true ∧
    [0x02, 0x10, 0x11, 0x20, 0x23, 0x30, 0x35, 0x38, 0x3C].any illegalOpcodeValue = false := by decide

theorem test_witness_IllegalOpcodeFaultsOrIsDiscarded :
    (illegalOpcodeValue (0xFF#8).toNat = true ∧ gs.fault = false) ∧
    (illegalOpcodeValue (0x03#8).toNat = true ∧ faulted.fault = true) := by decide

theorem test_witness_DecodeOfEncodeIsTheCommand : encode (.nop 0#24 0#32) = encode (.nop 0#24 0#32) := rfl

theorem test_witness_EncodeOfDecodeIsTheWord :
    decode 0x3C00001000000000#64 = .ok (.chIend 0x10#24 0#32) := by decide

theorem test_witness_StepRunsTheAcceptedCommand :
    gs.busy = false ∧ (offered 0x3000000000000000#64 gs).hostActs = .offer 0x3000000000000000#64 :: [] ∧
    decode 0x3000000000000000#64 = .ok (.sig 0#24 0#32) := by decide

theorem test_witness_WordIsAcceptedExactlyWhenPortReady :
    (generating 2 0).busy = true ∧ gs.busy = false := by decide

theorem test_witness_OnlyTblGenClosesThePort :
    ∃ s', step (offered 0x1000000000000000#64 gs) = .next s' ∧ portReady (offered 0x1000000000000000#64 gs) = true ∧
      portReady s' = false := ⟨_, rfl, rfl, rfl⟩

theorem test_witness_QuietBlockHoldsItsState :
    gs.busy = false ∧ gs.hostActs = [] ∧ ({ gs with hostActs := [.idle] } : State).hostActs = .idle :: [] := by decide

/-- One state for each case: inside an entry, the end of entry 254, the end of entry 255. -/
theorem test_witness_GeneratorIterationStep :
    ((generating 0 6).busy = true ∧ (generating 0 6).hostActs = [] ∧ (generating 0 6).genK ≠ 7) ∧
    ((generating 254 7).genN < 256 ∧ (generating 254 7).genK = 7 ∧ (generating 254 7).genN ≠ 255) ∧
    ((generating 255 7).genN < 256 ∧ (generating 255 7).genK = 7 ∧ (generating 255 7).genN = 255) := by decide

theorem test_witness_GenerationTakes2048StepsAndFillsTheTable :
    State.reset.busy = false ∧ State.reset.fault = false ∧ State.reset.sst = .idle := ⟨rfl, rfl, rfl⟩

theorem test_witness_TableReduceEqualsBitwiseReduce : ∀ n : Fin 256, genTable[n] = genEntry n := gs_table

theorem test_witness_StandaloneCrcIsTheReflectedCrc32 :
    StateInv gs ∧ gs.fault = false ∧ gs.sst = .idle ∧ gs.tv = true := ⟨gs_inv, rfl, rfl, rfl⟩

theorem test_witness_TblGenStartsGeneration :
    ((1#24 : Rsv) ≠ 0#24 ∨ (0#32 : Word) ≠ 0#32) ∧ ((0#24 : Rsv) ≠ 0#24 ∨ (1#32 : Word) ≠ 0#32) ∧
    (gs.fault = false ∧ gs.sst = .idle) ∧
    ((inType 1#32).fault = false ∧ (inType 1#32).sst ≠ .idle) ∧
    faulted.fault = true := by decide

theorem test_witness_TblRdReadsOneEntry :
    (∀ n : Fin 256, gs.t[n] = genEntry n) ∧
    ((0#24 : Rsv) ≠ 0#24 ∨ 256 ≤ (256#32 : Word).toNat) ∧
    (gs.fault = false ∧ gs.tv = true) ∧
    (State.reset.fault = false ∧ State.reset.tv = false) := ⟨gs_table, by decide⟩

theorem test_witness_CrcInitStartsACrc :
    ((1#24 : Rsv) ≠ 0#24 ∨ (0#32 : Word) ≠ 0#32) ∧ ((0#24 : Rsv) ≠ 0#24 ∨ (1#32 : Word) ≠ 0#32) ∧
    (gs.fault = false ∧ gs.sst = .idle) ∧
    ((inType 1#32).fault = false ∧ (inType 1#32).sst ≠ .idle) := by decide

theorem test_witness_CrcByteFoldsOneByte :
    (∀ n : Fin 256, gs.t[n] = genEntry n) ∧
    ((0#24 : Rsv) ≠ 0#24 ∨ 256 ≤ (256#32 : Word).toNat) ∧
    (gs.fault = false ∧ gs.sst = .idle ∧ gs.tv = true) ∧
    gs.acc = 0xFFFFFFFF#32 ∧
    ((inType 1#32).fault = false ∧ (inType 1#32).sst ≠ .idle) ∧
    (State.reset.fault = false ∧ State.reset.sst = .idle ∧ State.reset.tv = false) := ⟨gs_table, by decide⟩

theorem test_witness_CrcWordFoldsFourBytesBigEndian :
    (∀ n : Fin 256, gs.t[n] = genEntry n) ∧
    ((1#24 : Rsv) ≠ 0#24) ∧
    (gs.fault = false ∧ gs.sst = .idle ∧ gs.tv = true) ∧
    gs.acc = 0xFFFFFFFF#32 ∧
    ((inType 1#32).fault = false ∧ (inType 1#32).sst ≠ .idle) ∧
    (State.reset.fault = false ∧ State.reset.sst = .idle ∧ State.reset.tv = false) := ⟨gs_table, by decide⟩

theorem test_witness_CrcFinalDeliversTheCrc :
    (∀ n : Fin 256, gs.t[n] = genEntry n) ∧
    ((1#24 : Rsv) ≠ 0#24 ∨ (0#32 : Word) ≠ 0#32) ∧ ((0#24 : Rsv) ≠ 0#24 ∨ (1#32 : Word) ≠ 0#32) ∧
    (gs.fault = false ∧ gs.sst = .idle ∧ gs.tv = true) := ⟨gs_table, by decide⟩

theorem test_witness_ChLenOpensAChunk :
    ((1#24 : Rsv) ≠ 0#24) ∧
    (gs.fault = false ∧ gs.sst = .idle ∧ gs.tv = true) ∧
    ((inType 1#32).fault = false ∧ (inType 1#32).sst ≠ .idle) ∧
    (State.reset.fault = false ∧ State.reset.sst = .idle ∧ State.reset.tv = false) := by decide

/-- The table check needs SST = TYPE with TV = 0, a state no run reaches. -/
theorem test_witness_ChTypeEmitsTheTypeAndRestartsTheCrc :
    StateInv (inType 1#32) ∧ (∀ n : Fin 256, (inType 1#32).t[n] = genEntry n) ∧
    ((1#24 : Rsv) ≠ 0#24) ∧ ((inType 1#32).fault = false ∧ (inType 1#32).sst = .type ∧ (inType 1#32).tv = true) ∧
    ({ inType 1#32 with tv := false } : State).sst = .type ∧ ({ inType 1#32 with tv := false } : State).tv = false ∧
    (gs.fault = false ∧ gs.sst ≠ .type) := ⟨inType_inv, gs_table, by decide⟩

/-- REM at the boundaries 0 and 1. -/
theorem test_witness_ChDataEmitsOneByte :
    (∀ n r, (inData n r).fault = false ∧ (inData n r).sst = .data) ∧ (∀ n : Fin 256, gs.t[n] = genEntry n) ∧
    ((0#24 : Rsv) ≠ 0#24 ∨ 256 ≤ (256#32 : Word).toNat) ∧ (gs.fault = false ∧ gs.sst = .idle ∧ gs.sst ≠ .data ∧ gs.tv = true) ∧
    (inData 1#32 0#32).rem = 0#32 ∧ (inData 1#32 1#32).rem ≠ 0#32 :=
  ⟨fun _ _ => ⟨rfl, rfl⟩, gs_table, by decide⟩

/-- REM at the boundaries 1, 3 and 4. -/
theorem test_witness_ChDatawEmitsFourBytes :
    (∀ n r, (inData n r).fault = false ∧ (inData n r).sst = .data) ∧ (1#24 : Rsv) ≠ 0#24 ∧
    (gs.fault = false ∧ gs.sst = .idle ∧ gs.sst ≠ .data ∧ gs.tv = true) ∧
    ((inData 4#32 3#32).rem.toNat < 4 ∧ 1 ≤ (inData 4#32 3#32).rem.toNat ∧ (inData 4#32 3#32).rem.toNat ≤ 3) ∧
    (1 ≤ (inData 4#32 1#32).rem.toNat ∧ (inData 4#32 1#32).rem.toNat ≤ 3) ∧ 4 ≤ (inData 4#32 4#32).rem.toNat :=
  ⟨fun _ _ => ⟨rfl, rfl⟩, by decide⟩

/-- REM at the boundaries 0 and 1. -/
theorem test_witness_ChEndClosesTheChunk :
    (∀ n r, (inData n r).fault = false ∧ (inData n r).sst = .data) ∧ (∀ n : Fin 256, gs.t[n] = genEntry n) ∧
    ((1#24 : Rsv) ≠ 0#24 ∨ (0#32 : Word) ≠ 0#32) ∧ (gs.fault = false ∧ gs.sst = .idle ∧ gs.sst ≠ .data ∧ gs.tv = true) ∧
    (inData 1#32 1#32).rem ≠ 0#32 ∧ (inData 1#32 0#32).rem = 0#32 ∧
    0#32 = (inData 1#32 0#32).acc ^^^ 0xFFFFFFFF#32 := ⟨fun _ _ => ⟨rfl, rfl⟩, gs_table, by decide⟩

/-- A chunk with a NOP before its type and one data byte, an IHDR chunk and an IEND chunk, none with a fault. -/
theorem test_witness_EveryCompletedChunkIsWellFormed :
    StateInv gs ∧ gs.fault = false ∧
    (∀ i ∈ [Instr.nop 0#24 0#32] ++ [Instr.chData 0#24 0xAB#32],
      (∀ rsv imm, i ≠ .chEnd rsv imm) ∧ (∀ rsv imm, i ≠ .srst rsv imm)) ∧
    (∃ s', execAll ([.chLen 0#24 1#32] ++ [.nop 0#24 0#32] ++ [.chType 0#24 0x49444154#32] ++ [.chData 0#24 0xAB#32]
      ++ [.chEnd 0#24 0#32]) gs = .next s' ∧ s'.fault = false) ∧
    (∃ s', exec (.chIhdr 0#24 0#32) { gs with w := 1#32, h := 1#32 } = .next s' ∧ s'.fault = false) ∧
    (∃ s', exec (.chIend 0#24 0#32) gs = .next s' ∧ s'.fault = false) := by
  refine ⟨gs_inv, rfl, ?_, ?_, ?_, ?_⟩
  · intro i hi
    simp only [List.singleton_append, List.mem_cons, List.not_mem_nil, or_false] at hi
    rcases hi with rfl | rfl <;> simp
  all_goals exact completes _ (by decide +kernel)

theorem test_witness_SigEmitsTheSignature :
    ((1#24 : Rsv) ≠ 0#24 ∨ (0#32 : Word) ≠ 0#32) ∧ ((0#24 : Rsv) ≠ 0#24 ∨ (1#32 : Word) ≠ 0#32) ∧
    (gs.fault = false ∧ gs.sst = .idle) ∧
    ((inType 1#32).fault = false ∧ (inType 1#32).sst ≠ .idle) := by decide

theorem test_witness_SetWWritesTheWidth :
    (1#24 : Rsv) ≠ 0#24 ∧ gs.fault = false ∧ gs.sst = .idle ∧ gs.tv = true ∧ gs.w = 0#32 := by decide

theorem test_witness_SetHWritesTheHeight :
    (1#24 : Rsv) ≠ 0#24 ∧ gs.fault = false ∧ gs.sst = .idle ∧ gs.tv = true ∧ gs.h = 0#32 := by decide

/-- The colour types beside the legal ones. -/
theorem test_witness_SetCtWritesTheColourType :
    ((0#24 : Rsv) ≠ 0#24 ∨ 256 ≤ (256#32 : Word).toNat) ∧ (gs.fault = false ∧ gs.sst = .idle ∧ gs.sst ≠ .data ∧ gs.tv = true) ∧
    (({ gs with ct := 1#8 } : State).ct ≠ 0#8 ∧ ({ gs with ct := 1#8 } : State).ct ≠ 2#8) ∧
    (({ gs with ct := 3#8 } : State).ct ≠ 0#8 ∧ ({ gs with ct := 3#8 } : State).ct ≠ 2#8) := by decide

/-- Parameters that pass, with each legal colour type, and each way to fail. -/
theorem test_witness_ChIhdrEmitsTheHeaderChunk :
    (∀ v u c, ({ gs with w := v, h := u, ct := c } : State).fault = false ∧
      ({ gs with w := v, h := u, ct := c } : State).sst = .idle ∧ ({ gs with w := v, h := u, ct := c } : State).tv = true ∧
      ∀ n : Fin 256, ({ gs with w := v, h := u, ct := c } : State).t[n] = genEntry n) ∧
    ((1#24 : Rsv) ≠ 0#24 ∨ (0#32 : Word) ≠ 0#32) ∧ ((inType 1#32).fault = false ∧ (inType 1#32).sst ≠ .idle) ∧
    (State.reset.fault = false ∧ State.reset.sst = .idle ∧ State.reset.tv = false) ∧
    ({ gs with w := 2#32, h := 2#32, ct := 0#8 } : State).w = 2#32 ∧ (2#32 : Word) ≠ 0#32 ∧
    ((0#8 : Byte) = 0#8 ∨ (0#8 : Byte) = 2#8) ∧ ((2#8 : Byte) = 0#8 ∨ (2#8 : Byte) = 2#8) ∧
    gs.w = 0#32 ∧ ({ gs with w := 1#32 } : State).h = 0#32 ∧ ((1#8 : Byte) ≠ 0#8 ∧ (1#8 : Byte) ≠ 2#8) :=
  ⟨fun _ _ _ => ⟨rfl, rfl, rfl, gs_table⟩, by decide⟩

theorem test_witness_ChIendEmitsTheEndChunk :
    (∀ n : Fin 256, gs.t[n] = genEntry n) ∧
    ((1#24 : Rsv) ≠ 0#24 ∨ (0#32 : Word) ≠ 0#32) ∧ ((0#24 : Rsv) ≠ 0#24 ∨ (1#32 : Word) ≠ 0#32) ∧
    (gs.fault = false ∧ gs.sst = .idle ∧ gs.tv = true) ∧
    ((inType 1#32).fault = false ∧ (inType 1#32).sst ≠ .idle) ∧
    (State.reset.fault = false ∧ State.reset.sst = .idle ∧ State.reset.tv = false) := ⟨gs_table, by decide⟩

theorem test_witness_NopDoesNothing :
    ((1#24 : Rsv) ≠ 0#24 ∨ (0#32 : Word) ≠ 0#32) ∧ ((0#24 : Rsv) ≠ 0#24 ∨ (1#32 : Word) ≠ 0#32) ∧
    gs.fault = false ∧
    faulted.fault = true := by decide

theorem test_witness_SrstResetsTheBlock :
    ((1#24 : Rsv) ≠ 0#24 ∨ (0#32 : Word) ≠ 0#32) ∧ ((0#24 : Rsv) ≠ 0#24 ∨ (1#32 : Word) ≠ 0#32) ∧
    gs.fault = false ∧ faulted.fault = true ∧ (generating 0 0).busy = true ∧
    ∃ s', exec (.srst 0#24 0#32) faulted = .next s' ∧ s'.fault = false := ⟨by decide, by decide, rfl, rfl, rfl, _, rfl, rfl⟩

theorem test_witness_RegRdReadsTheSelectedRegister :
    ((0#24 : Rsv) ≠ 0#24 ∨ 12 ≤ (12#32 : Word).toNat) ∧
    gs.fault = false ∧
    faulted.fault = true := by decide

/-- The reset input while the generator runs. -/
theorem test_witness_ResetInputActsAtAnyTime :
    ({ generating 2 3 with hostActs := [.resetInput] } : State).hostActs = .resetInput :: [] ∧
    ({ generating 2 3 with hostActs := [.resetInput] } : State).busy = true := by decide

/-- At the first and the last step of a generation, and at both ends of an entry. -/
theorem test_witness_ResetStopsARunningGeneration :
    gs.busy = false ∧ gs.fault = false ∧ gs.sst = .idle ∧ [0, 7, 8, 2047].all (fun k => decide (k < 2048)) = true := by
  decide

theorem test_witness_FaultStateDiscardsEverythingElse :
    faulted.fault = true ∧ decode 0xFF00000000000000#64 = .error (.illegalOpcode 0xFF#8) := by decide

/-- A command that fails a check, one that passes all, an illegal word, and the fault state. -/
theorem test_witness_EarliestFailingCheckDecidesTheFault :
    (gs.fault = false ∧ predictedFault (.chIhdr 0#24 0#32) gs = 7#4) ∧ predictedFault (.sig 0#24 0#32) gs = 0#4 ∧
    decode 0xFF00000000000000#64 = .error (.illegalOpcode 0xFF#8) ∧ faulted.fault = true := by decide

/-- A decoded command that faults, and an illegal word. -/
theorem test_witness_FaultsArePrecise :
    (∃ s', execute 0x3B00000000000000#64 gs = .next s' ∧ s'.fault = true) ∧
    (∃ s', execute 0x3600000000000005#64 gs = .next s' ∧ s'.fault = true) := by
  constructor <;>
    exact reaches_spec _ (fun s => s.fault) (by decide +kernel)

/-- By the reset input, and by SRST; a discarded command stays in it. -/
theorem test_witness_OnlyAResetLeavesTheFaultState :
    faulted.fault = true ∧ (∃ s', step (offered 0x3000000000000000#64 faulted) = .next s' ∧ s'.fault = true) ∧
    (∃ s', step { faulted with hostActs := [.resetInput] } = .next s' ∧ s'.fault = false) ∧
    (∃ s', step (offered 0x0100000000000000#64 faulted) = .next s' ∧ s'.fault = false) :=
  ⟨rfl, ⟨_, rfl, rfl⟩, completes _ (by decide +kernel), completes _ (by decide +kernel)⟩

/-- The fault state of E8.1 meets the invariants. -/
theorem faulted_inv : StateInv faulted where
  faultErr := by decide
  busyAlone := fun h => by cases h
  openHasTable := fun _ => rfl
  idleRem := fun _ => rfl
  typeRem := fun h => by cases h
  remLeLen := by decide
  errRange := by decide
  tableValid := fun _ => gs_table
  genRange := by decide
  genProgress := fun h => by cases h

/-- REG_RD in the fault state (E8.8): a step that is no reset, and changes RESULT. -/
theorem test_witness_FaultStateHoldsUntilAReset :
    StateInv { faulted with hostActs := [.offer 0x0200000000000008#64] } ∧ faulted.fault = true ∧
    (∃ s', step (offered 0x0200000000000008#64 faulted) = .next s' ∧ s'.result ≠ faulted.result) ∧
    ¬ ResetStep (offered 0x0200000000000008#64 faulted) := by
  refine ⟨{ faulted_inv with }, rfl, ⟨_, rfl, by decide⟩, ?_⟩
  rintro (⟨_, h⟩ | ⟨word, _, h, _, hd⟩)
  · cases h
  · cases h
    revert hd
    decide

theorem test_witness_NoStepStopsTheBlock :
    ∃ s', step (offered 0x3B00000000000000#64 gs) = .next s' ∧ gs.fault = false ∧ s'.fault = true := by
  obtain ⟨s', h, hf⟩ := reaches_spec (step (offered 0x3B00000000000000#64 gs)) (fun s => s.fault) (by decide +kernel)
  exact ⟨s', h, rfl, hf⟩

/-- A command's step, and the generator's. -/
theorem test_witness_EveryStepKeepsTheInvariants :
    (StateInv (inType 1#32) ∧ ∃ s', step (inType 1#32) = .next s') ∧
    (StateInv (generating 255 0) ∧ ∃ s', step (generating 255 0) = .next s') :=
  ⟨⟨inType_inv, _, rfl⟩, generating_inv.1, _, rfl⟩

/-- A reachable state in which the generator runs, and one with the fault taken. -/
theorem test_witness_ReachableStatesMeetTheEightInvariants :
    (∃ s, Reachable s ∧ s.busy = true) ∧ (∃ s, Reachable s ∧ s.fault = true) := by
  constructor
  · exact ⟨_, .step (.powerOn [.offer 0x1000000000000000#64]) rfl, rfl⟩
  · exact ⟨_, .step (.powerOn [.offer 0xFF00000000000000#64]) rfl, rfl⟩

/-- A step that emits, and a reset after some output. -/
theorem test_witness_OutputIsNeverRetractedAndIsCounted :
    (∃ s', step (offered 0x3000000000000000#64 gs) = .next s' ∧ s'.outCnt = 8#32) ∧
    (∃ s', step { gs with out := [7#8], outCnt := 1#32, hostActs := [.resetInput] } = .next s' ∧ s'.outCnt = 0#32) :=
  ⟨⟨_, rfl, by decide +kernel⟩, _, rfl, rfl⟩

/-- A command that completes, one that faults, one that is discarded. -/
theorem test_witness_EveryCommandEmitsItsByteCount :
    (∃ s', exec (.sig 0#24 0#32) gs = .next s' ∧ s'.fault = false) ∧
    (∃ s', exec (.sig 1#24 0#32) gs = .next s' ∧ s'.fault = true) ∧
    (∃ s', exec (.sig 0#24 0#32) faulted = .next s' ∧ faulted.fault = true) :=
  ⟨⟨_, rfl, rfl⟩, ⟨_, rfl, rfl⟩, _, rfl, rfl⟩

/-- A command that writes RESULT, a reset that does, a fault that does not. -/
theorem test_witness_OnlySixCommandsWriteResult :
    (∃ s', step (offered 0x0200000000000007#64 gs) = .next s' ∧ s'.result ≠ gs.result) ∧
    (∃ s', step { gs with result := 1#32, hostActs := [.resetInput] } = .next s' ∧ s'.result ≠ 1#32) ∧
    (∃ s', step (offered 0x3000000100000000#64 gs) = .next s' ∧ gs.fault = false ∧ s'.fault = true) :=
  ⟨⟨_, rfl, by decide⟩, ⟨_, rfl, by decide⟩, _, rfl, rfl, rfl⟩

theorem test_witness_OnlyEightCommandsWriteAcc :
    ∃ s', step (offered 0x2000000000000000#64 { gs with acc := 0#32 }) = .next s' ∧ s'.acc ≠ 0#32 :=
  ⟨_, rfl, by decide⟩

/-- CH_LEN changes SST, LEN and REM, CH_TYPE changes TYPE. -/
theorem test_witness_FramerRegistersHaveTheirWriters :
    (∃ s', step (offered 0x3100000000000005#64 gs) = .next s' ∧ s'.sst ≠ gs.sst ∧ s'.len ≠ gs.len ∧ s'.rem ≠ gs.rem) ∧
    (∃ s', step (offered 0x3200000049444154#64 (inType 0#32)) = .next s' ∧ s'.chunkType ≠ (inType 0#32).chunkType) := by
  constructor
  · obtain ⟨s', h, hf⟩ := reaches_spec (step (offered 0x3100000000000005#64 gs))
      (fun s => decide (s.sst ≠ gs.sst ∧ s.len ≠ gs.len ∧ s.rem ≠ gs.rem)) (by decide +kernel)
    exact ⟨s', h, of_decide_eq_true hf⟩
  · obtain ⟨s', h, hf⟩ := reaches_spec (step (offered 0x3200000049444154#64 (inType 0#32)))
      (fun s => decide (s.chunkType ≠ (inType 0#32).chunkType)) (by decide +kernel)
    exact ⟨s', h, of_decide_eq_true hf⟩

/-- The end of an entry changes T, TBL_GEN changes TV, the three SET commands their registers. -/
theorem test_witness_TableAndParameterRegistersHaveTheirWriters :
    reaches (step { generating 1 7 with t := Vector.replicate 256 0#32 }) (fun s => s.t[1] != 0#32) = true ∧
    accepts 0x1000000000000000#64 gs (fun s => s.tv != gs.tv) = true ∧
    accepts 0x3800000000000002#64 gs (fun s => s.w != gs.w) = true ∧
    accepts 0x3900000000000002#64 gs (fun s => s.h != gs.h) = true ∧
    accepts 0x3A00000000000002#64 gs (fun s => s.ct != gs.ct) = true := by decide +kernel

/-- Two states that differ in the hidden part of T alone: after power-on, and at the last generator step. -/
theorem test_witness_PowerOnTableIsNeverObservable :
    (StateInv { generating 255 0 with t := genTable.set 255 7#32 } ∧
      AgreeButForHiddenTable { generating 255 0 with t := genTable.set 255 7#32 } (generating 255 0)) ∧
    AgreeButForHiddenTable State.reset { State.reset with t := genTable } ∧
    (∃ s', step (generating 255 0) = .next s') := by
  have agree : ∀ n : Fin 256, n.val < 255 → (genTable.set 255 7#32)[n] = genTable[n] := by
    intro n hn
    have hne : 255 ≠ n.val := by omega
    simp [hne]
  refine ⟨⟨?_, rfl, fun h => absurd h (by decide), fun _ => agree⟩, ⟨rfl, fun h => absurd h (by decide), fun h => absurd h (by decide)⟩, _, rfl⟩
  exact {
    faultErr := by decide
    busyAlone := fun _ => ⟨rfl, rfl, rfl⟩
    openHasTable := fun h => absurd rfl h
    idleRem := fun _ => rfl
    typeRem := fun h => by cases h
    remLeLen := by decide
    errRange := by decide
    tableValid := fun h => by cases h
    genRange := by decide
    genProgress := fun _ => ⟨by decide, rfl, fun n hn => (agree n hn).trans (gs_table n)⟩ }

theorem test_witness_EveryHostProgramRunEnds : State.reset.busy = false := rfl

theorem test_witness_AssembledCommandsAreValid :
    assembleCommand ⟨"CH_DATA", [.number 255]⟩ = .ok (.chData 0#24 255#32) ∧
    assembleCommand ⟨"REG_RD", [.number 11]⟩ = .ok (.regRd 0#24 11#32) := by decide +kernel

end Sys2Proof.Tests
end

/-! ### Noninterference of the unfilled table (R8, R22, R233, R241)

A command reads T only after a check that the table is valid (R202), or inside an open chunk, which R46 allows with a
valid table alone; then T is filled whole and agreeing states are equal. Every other effect leaves T as it is, and the
generator writes one value in both states. -/

namespace Sys2Proof.Machine

/-- Two results are both next states, and these agree but for the hidden part of T. -/
def AgreeAfter (r₁ r₂ : Result) : Prop :=
  ∃ s₁ s₂, r₁ = .next s₁ ∧ r₂ = .next s₂ ∧ AgreeButForHiddenTable s₁ s₂

theorem AgreeButForHiddenTable.refl (s : State) : AgreeButForHiddenTable s s := ⟨rfl, fun _ => rfl, fun _ _ _ => rfl⟩

/-- With TV = 1 nothing of T is hidden. -/
theorem AgreeButForHiddenTable.eq_of_tv {s₁ s₂ : State} (h : AgreeButForHiddenTable s₁ s₂) (htv : s₁.tv = true) :
    s₁ = s₂ := by
  obtain ⟨hs, ht, -⟩ := h
  rw [hs, ← ht htv]

/-- The second of two agreeing states is the first with another table. -/
theorem AgreeButForHiddenTable.exists_table {s₁ s₂ : State} (h : AgreeButForHiddenTable s₁ s₂) :
    ∃ t, s₂ = { s₁ with t := t } := ⟨s₂.t, h.1⟩

/-- An effect that neither reads nor writes T, keeps TV, BUSY and GEN_N and is the same for every table keeps the
agreement. -/
theorem AgreeButForHiddenTable.map_of_frame {s₁ s₂ : State} (h : AgreeButForHiddenTable s₁ s₂) (f : State → State)
    (hf : ∀ (s : State) (t : Table), f { s with t := t } = { f s with t := t })
    (hframe : ∀ s, (f s).t = s.t ∧ (f s).tv = s.tv ∧ (f s).busy = s.busy ∧ (f s).genN = s.genN) :
    AgreeButForHiddenTable (f s₁) (f s₂) := by
  obtain ⟨ht₁, htv, hbusy, hgenN⟩ := hframe s₁
  obtain ⟨ht₂, -⟩ := hframe s₂
  refine ⟨?_, ?_, ?_⟩
  · rw [ht₂, ← hf, ← h.1]
  · rw [htv, ht₁, ht₂]; exact h.2.1
  · rw [hbusy, hgenN, ht₁, ht₂]; exact h.2.2

/-- A fault is taken alike in both states (R204). -/
theorem AgreeButForHiddenTable.raiseFault {s₁ s₂ : State} (h : AgreeButForHiddenTable s₁ s₂) (code : FaultCode)
    (word : CmdWord) : AgreeButForHiddenTable (raiseFault code word s₁) (raiseFault code word s₂) :=
  h.map_of_frame _ (fun _ _ => rfl) (fun _ => ⟨rfl, rfl, rfl, rfl⟩)

/-- `Emit` keeps the agreement (R62). -/
theorem AgreeButForHiddenTable.emit {s₁ s₂ : State} (h : AgreeButForHiddenTable s₁ s₂) (bs : List Byte) :
    AgreeButForHiddenTable (emit bs s₁) (emit bs s₂) :=
  h.map_of_frame _ (fun _ _ => by simp only [emit_eq]) (fun _ => by simp only [emit_eq, and_self])

/-- A reset hides all of T: TV and BUSY are 0 after it (R231). -/
theorem AgreeButForHiddenTable.resetState {s₁ s₂ : State} (h : AgreeButForHiddenTable s₁ s₂) :
    AgreeButForHiddenTable (resetState s₁) (resetState s₂) := by
  obtain ⟨t, rfl⟩ := h.exists_table
  exact ⟨rfl, nofun, nofun⟩

/-- TBL_GEN's effect hides all of T: generation starts at entry 0 (R101). -/
theorem AgreeButForHiddenTable.startGen {s₁ s₂ : State} (h : AgreeButForHiddenTable s₁ s₂) :
    AgreeButForHiddenTable (startGen s₁) (startGen s₂) := by
  obtain ⟨t, rfl⟩ := h.exists_table
  exact ⟨rfl, nofun, fun _ n hn => absurd hn n.val.not_lt_zero⟩

/-- The register view does not depend on T (R42). -/
@[simp] theorem regview_table (sel : Word) (s : State) (t : Table) : regview sel { s with t := t } = regview sel s := rfl

/-- REG_RD's effect keeps the agreement (R192). -/
theorem AgreeButForHiddenTable.readRegister {s₁ s₂ : State} (h : AgreeButForHiddenTable s₁ s₂) (sel : Word) :
    AgreeButForHiddenTable (readRegister sel s₁) (readRegister sel s₂) := by
  refine h.map_of_frame _ (fun s t => ?_) (fun s => ?_)
  · simp only [Machine.readRegister, regview_table]
    cases regview sel s <;> rfl
  · simp only [Machine.readRegister]
    cases regview sel s <;> exact ⟨rfl, rfl, rfl, rfl⟩

/-- One table write extends the agreement of two tables by an entry. -/
theorem tableWrite_agree {t₁ t₂ : Table} {k : Nat} (v : Word) (h : ∀ n : Fin 256, n.val < k → t₁[n] = t₂[n])
    (n : Fin 256) (hn : n.val < k + 1) : (tableWrite t₁ k v)[n] = (tableWrite t₂ k v)[n] := by
  rcases Nat.lt_succ_iff_lt_or_eq.mp hn with hlt | heq
  · have hne : k ≠ n.val := by omega
    simpa [tableWrite, hne] using h n hlt
  · simp [tableWrite, heq]

/-- A generator step keeps the agreement: both states write the same entry, and after the last one T is filled whole
(R102, R103). -/
theorem AgreeButForHiddenTable.stepGen {s₁ s₂ : State} (h : AgreeButForHiddenTable s₁ s₂) (hbusy : s₁.busy = true) :
    AgreeButForHiddenTable (stepGen s₁) (stepGen s₂) := by
  obtain ⟨t, rfl⟩ := h.exists_table
  obtain ⟨-, htv, hfilled⟩ := h
  have hwrite := tableWrite_agree (bitstep s₁.genC) (hfilled hbusy)
  by_cases hk : s₁.genK = 7
  · by_cases hn : s₁.genN + 1 = 256
    · rw [stepGen_last _ hk hn, stepGen_last { s₁ with t := t } hk hn]
      exact ⟨rfl, fun _ => Vector.ext fun i hi => hwrite ⟨i, hi⟩ (by omega), nofun⟩
    · rw [stepGen_entry _ hk hn, stepGen_entry { s₁ with t := t } hk hn]
      exact ⟨rfl, fun hv => congrArg (tableWrite · _ _) (htv hv), fun _ => hwrite⟩
  · rw [stepGen_inside _ hk, stepGen_inside { s₁ with t := t } hk]
    exact ⟨rfl, htv, hfilled⟩

/-- The checks of R203 do not look at T, as long as the command's further check does not. -/
theorem firstFailure_table (n : Needs) (rsv : Rsv) (imm : Word) (further : State → Option FaultCode)
    (hfurther : ∀ (s : State) (t : Table), further { s with t := t } = further s) (s : State) (t : Table) :
    firstFailure n rsv imm further { s with t := t } = firstFailure n rsv imm further s := by
  simp only [firstFailure, hfurther]

/-- A discardable command keeps the agreement where its effect does so once every check passes (R203, R206). -/
theorem runGuarded_agree {i : Instr} {n : Needs} {further : State → Option FaultCode} {perform : State → State}
    {s₁ s₂ : State} (h : AgreeButForHiddenTable s₁ s₂)
    (hfurther : ∀ (s : State) (t : Table), further { s with t := t } = further s)
    (hperform : firstFailure n i.fields.1 i.fields.2 further s₁ = none →
      AgreeButForHiddenTable (perform s₁) (perform s₂)) :
    AgreeAfter (runGuarded i n further perform s₁) (runGuarded i n further perform s₂) := by
  have hfault : s₂.fault = s₁.fault := by rw [h.1]
  have hchecks : firstFailure n i.fields.1 i.fields.2 further s₂ = firstFailure n i.fields.1 i.fields.2 further s₁ := by
    rw [h.1, firstFailure_table _ _ _ _ hfurther]
  unfold runGuarded
  rw [hfault, hchecks]
  cases s₁.fault with
  | true => exact ⟨s₁, s₂, rfl, rfl, h⟩
  | false =>
    cases hc : firstFailure n i.fields.1 i.fields.2 further s₁ with
    | some code => exact ⟨_, _, rfl, rfl, h.raiseFault code _⟩
    | none => exact ⟨_, _, rfl, rfl, hperform hc⟩

/-- A discardable command whose effect has no use for T keeps the agreement. -/
theorem runGuarded_agree_of_frame {i : Instr} {n : Needs} {further : State → Option FaultCode}
    {perform : State → State} {s₁ s₂ : State} (h : AgreeButForHiddenTable s₁ s₂)
    (hfurther : ∀ (s : State) (t : Table), further { s with t := t } = further s)
    (hperform : ∀ (s : State) (t : Table), perform { s with t := t } = { perform s with t := t })
    (hframe : ∀ s, (perform s).t = s.t ∧ (perform s).tv = s.tv ∧ (perform s).busy = s.busy ∧
      (perform s).genN = s.genN) :
    AgreeAfter (runGuarded i n further perform s₁) (runGuarded i n further perform s₂) :=
  runGuarded_agree h hfurther fun _ => h.map_of_frame perform hperform hframe

/-- A command that runs with a valid table alone, by its TV check or inside an open chunk, keeps the agreement whatever it
does with T: where it is performed the two states are equal (R46.3, R202). -/
theorem runGuarded_agree_of_table {i : Instr} {n : Needs} {further : State → Option FaultCode}
    {perform : State → State} {s₁ s₂ : State} (hopen : s₁.sst ≠ .idle → s₁.tv = true)
    (h : AgreeButForHiddenTable s₁ s₂)
    (hfurther : ∀ (s : State) (t : Table), further { s with t := t } = further s)
    (hneeds : n.table = true ∨ n.sst = some .data) :
    AgreeAfter (runGuarded i n further perform s₁) (runGuarded i n further perform s₂) := by
  refine runGuarded_agree h hfurther fun hpass => ?_
  obtain ⟨-, hsst, htable, -⟩ := (firstFailure_none ..).mp hpass
  have htv : s₁.tv = true := by
    rcases hneeds with hn | hn
    · exact htable hn
    · rw [hn] at hsst
      have hdata : Sst.data = s₁.sst := Option.some.inj (hsst.resolve_left nofun)
      exact hopen (hdata ▸ nofun)
  rw [h.eq_of_tv htv]
  exact .refl _

/-- NOP, SRST and REG_RD keep the agreement where their effects do (R206). -/
theorem runAlways_agree {i : Instr} {c : OpClass} {perform : State → State} {s₁ s₂ : State}
    (h : AgreeButForHiddenTable s₁ s₂) (hperform : AgreeButForHiddenTable (perform s₁) (perform s₂)) :
    AgreeAfter (runAlways i c perform s₁) (runAlways i c perform s₂) := by
  have hfault : s₂.fault = s₁.fault := by rw [h.1]
  unfold runAlways
  rw [hfault]
  cases operandLegal c i.fields.1 i.fields.2 with
  | true => exact ⟨_, _, rfl, rfl, hperform⟩
  | false =>
    cases s₁.fault with
    | true => exact ⟨_, _, rfl, rfl, h⟩
    | false => exact ⟨_, _, rfl, rfl, h.raiseFault _ _⟩

/-- A word with an unassigned opcode keeps the agreement (R84). -/
theorem runIllegal_agree (word : CmdWord) {s₁ s₂ : State} (h : AgreeButForHiddenTable s₁ s₂) :
    AgreeAfter (runIllegal word s₁) (runIllegal word s₂) := by
  have hfault : s₂.fault = s₁.fault := by rw [h.1]
  unfold runIllegal
  rw [hfault]
  cases s₁.fault with
  | true => exact ⟨_, _, rfl, rfl, h⟩
  | false => exact ⟨_, _, rfl, rfl, h.raiseFault _ _⟩

/-- Every command keeps the agreement: it needs a valid table, or has no use for T. -/
theorem exec_agree (i : Instr) {s₁ s₂ : State} (hopen : s₁.sst ≠ .idle → s₁.tv = true)
    (h : AgreeButForHiddenTable s₁ s₂) : AgreeAfter (exec i s₁) (exec i s₂) := by
  unfold exec execNop execSrst execRegRd execTblGen execTblRd execCrcInit execCrcByte execCrcWord execCrcFinal execSig
    execChLen execChType execChData execChDataw execChEnd execSetW execSetH execSetCt execChIhdr execChIend
  cases i with
  | nop => exact runAlways_agree h h
  | srst => exact runAlways_agree h h.resetState
  | regRd rsv imm => exact runAlways_agree h (h.readRegister imm)
  | tblGen => exact runGuarded_agree h (fun _ _ => rfl) fun _ => h.startGen
  | sig => exact runGuarded_agree h (fun _ _ => rfl) fun _ => h.emit signature
  | crcInit | crcFinal | setW | setH | setCt =>
    exact runGuarded_agree_of_frame h (fun _ _ => rfl) (fun _ _ => rfl) (fun _ => ⟨rfl, rfl, rfl, rfl⟩)
  | tblRd | crcByte | crcWord | chLen | chType | chIhdr | chIend =>
    exact runGuarded_agree_of_table hopen h (fun _ _ => rfl) (.inl rfl)
  | chData | chDataw | chEnd => exact runGuarded_agree_of_table hopen h (fun _ _ => rfl) (.inr rfl)

/-- An accepted word, decoded or illegal, keeps the agreement. -/
theorem execute_agree (word : CmdWord) {s₁ s₂ : State} (hopen : s₁.sst ≠ .idle → s₁.tv = true)
    (h : AgreeButForHiddenTable s₁ s₂) : AgreeAfter (execute word s₁) (execute word s₂) := by
  unfold execute
  cases decode word with
  | ok i => exact exec_agree i hopen h
  | error e => exact runIllegal_agree word h

/-- What the block does next, and with which of the host's actions left, does not depend on T. -/
theorem nextActivity_cases_table (s : State) :
    (∃ acts, ∀ t, nextActivity { s with t := t } = .reset { s with t := t, hostActs := acts }) ∨
    (∃ acts, s.busy = true ∧ ∀ t, nextActivity { s with t := t } = .generate { s with t := t, hostActs := acts }) ∨
    (∃ word acts, ∀ t, nextActivity { s with t := t } = .command word { s with t := t, hostActs := acts }) ∨
    (∃ acts, ∀ t, nextActivity { s with t := t } = .quiet { s with t := t, hostActs := acts }) := by
  cases s.hostActs with
  | nil =>
    cases s.busy with
    | true => exact .inr (.inl ⟨[], rfl, fun t => by simp [nextActivity, undisturbed]⟩)
    | false => exact .inr (.inr (.inr ⟨[], fun t => by simp [nextActivity, undisturbed]⟩))
  | cons act rest =>
    cases act with
    | resetInput => exact .inl ⟨rest, fun t => by simp [nextActivity]⟩
    | idle =>
      cases s.busy with
      | true => exact .inr (.inl ⟨rest, rfl, fun t => by simp [nextActivity, undisturbed]⟩)
      | false => exact .inr (.inr (.inr ⟨rest, fun t => by simp [nextActivity, undisturbed]⟩))
    | offer word =>
      cases s.busy with
      | true =>
        exact .inr (.inl ⟨.offer word :: rest, rfl, fun t => by simp [nextActivity, portReady]⟩)
      | false => exact .inr (.inr (.inl ⟨word, rest, fun t => by simp [nextActivity, portReady]⟩))

/-- Every step keeps the agreement, from states in which an open chunk has a valid table (R46.3). -/
theorem step_agree {s₁ s₂ : State} (hopen : s₁.sst ≠ .idle → s₁.tv = true) (h : AgreeButForHiddenTable s₁ s₂) :
    AgreeAfter (step s₁) (step s₂) := by
  have hacts : ∀ acts, AgreeButForHiddenTable { s₁ with hostActs := acts } { s₂ with hostActs := acts } :=
    fun acts => h.map_of_frame (fun s => { s with hostActs := acts }) (fun _ _ => rfl) (fun _ => ⟨rfl, rfl, rfl, rfl⟩)
  obtain ⟨t, rfl⟩ := h.exists_table
  unfold step
  rcases nextActivity_cases_table s₁ with ⟨acts, hact⟩ | ⟨acts, hbusy, hact⟩ | ⟨word, acts, hact⟩ | ⟨acts, hact⟩ <;>
    rw [hact t, show nextActivity s₁ = _ from hact s₁.t]
  · exact ⟨_, _, rfl, rfl, (hacts acts).resetState⟩
  · exact ⟨_, _, rfl, rfl, (hacts acts).stepGen hbusy⟩
  · exact execute_agree word hopen (hacts acts)
  · exact ⟨_, _, rfl, rfl, hacts acts⟩

/-- Settles O56: the agreement is kept by every step, shown by no port or register, and holds at power-on. -/
theorem powerOnTableIsNeverObservable : Obligations.PowerOnTableIsNeverObservable := by
  refine ⟨fun s₁ s₂ s₁' hinv h hstep => ?_, fun s₁ s₂ h => ?_, fun t acts => ⟨rfl, nofun, nofun⟩⟩
  · obtain ⟨r₁, r₂, h₁, h₂, hagree⟩ := step_agree hinv.openHasTable h
    cases hstep.symm.trans h₁
    exact ⟨r₂, h₂, hagree⟩
  · obtain ⟨t, rfl⟩ := h.exists_table
    exact ⟨rfl, rfl, rfl, fun _ => rfl, fun _ => rfl⟩

end Sys2Proof.Machine

/-! ### The table reduce is the bitwise reduce, and the standalone CRC (R100, R120 to R126)

An iteration is linear over exclusive or, so eight of them act on the low byte and on the rest apart: the low byte
gives a table entry, and the rest, whose low byte is 0, is shifted out. -/

namespace Sys2Proof.Machine

/-- `k` iterations are `bitstep` iterated `k` times (R100). -/
theorem bitsteps_eq_iterate (k : Nat) (c : Word) : bitsteps k c = bitstep^[k] c := by
  induction k generalizing c with
  | zero => rfl
  | succ k ih => exact ih _

/-- An iteration is linear over exclusive or. -/
theorem bitstep_xor (x y : Word) : bitstep (x ^^^ y) = bitstep x ^^^ bitstep y := by
  unfold bitstep
  rw [BitVec.getLsbD_xor, BitVec.ushiftRight_xor_distrib]
  cases x.getLsbD 0 <;> cases y.getLsbD 0
  case true.true =>
    simp only [bne_self_eq_false, Bool.false_eq_true, if_false, if_true]
    rw [BitVec.xor_comm poly, BitVec.xor_assoc, ← BitVec.xor_assoc poly, BitVec.xor_self, BitVec.zero_xor]
  case true.false => simp [BitVec.xor_assoc]
  case false.true => simp [← BitVec.xor_assoc, BitVec.xor_comm poly]
  case false.false => rfl

/-- So are `k` iterations. -/
theorem bitsteps_xor (k : Nat) (x y : Word) : bitsteps k (x ^^^ y) = bitsteps k x ^^^ bitsteps k y := by
  induction k with
  | zero => rfl
  | succ k ih => rw [bitsteps_succ, ih, bitstep_xor, ← bitsteps_succ, ← bitsteps_succ]

/-- Iterations that meet only zero bits are shifts. -/
theorem bitsteps_of_low_zero (k : Nat) (c : Word) (h : ∀ i < k, c.getLsbD i = false) : bitsteps k c = c >>> k := by
  induction k with
  | zero => simp [bitsteps]
  | succ k ih =>
    have hbit : (c >>> k).getLsbD 0 = false := by simpa using h k k.lt_succ_self
    rw [bitsteps_succ, ih fun i hi => h i (Nat.lt_succ_of_lt hi), bitstep, hbit, BitVec.shiftRight_add]
    rfl

/-- A word is its low byte and the rest. -/
theorem low_byte_xor_rest (c : Word) : (c.setWidth 8).setWidth 32 ^^^ (c >>> 8 <<< 8) = c := by
  ext i hi
  by_cases h : i < 8
  · simp [h, BitVec.getLsbD_eq_getElem hi]
  · simp [h, Nat.add_sub_cancel' (Nat.not_lt.mp h), BitVec.getLsbD_eq_getElem hi]

/-- Eight iterations are a table entry, by the low byte, and a shift (R126). -/
theorem bitsteps_eight (c : Word) : bitsteps 8 c = genEntry (c.setWidth 8).toNat ^^^ (c >>> 8) := by
  have hrest : bitsteps 8 (c >>> 8 <<< 8) = c >>> 8 := by
    rw [bitsteps_of_low_zero 8 _ fun i hi => by simp [hi]]
    ext i hi
    simpa using BitVec.lt_of_getLsbD
  calc bitsteps 8 c
      = bitsteps 8 ((c.setWidth 8).setWidth 32) ^^^ bitsteps 8 (c >>> 8 <<< 8) := by
        rw [← bitsteps_xor, low_byte_xor_rest]
    _ = genEntry (c.setWidth 8).toNat ^^^ (c >>> 8) := by rw [hrest, genEntry, BitVec.ofNat_toNat]

/-- With a valid table one reduce step is eight iterations (R126). -/
theorem upd_eq_bitsteps {t : Table} (ht : ∀ n : Fin 256, t[n] = genEntry n) (a : Word) (b : Byte) :
    upd t a b = bitsteps 8 (a ^^^ b.setWidth 32) := by
  have hindex : ((a ^^^ b.setWidth 32) &&& 0xFF#32).setWidth 8 = (a ^^^ b.setWidth 32).setWidth 8 := by
    rw [BitVec.setWidth_and]
    exact BitVec.and_allOnes
  have hshift : (a ^^^ b.setWidth 32) >>> 8 = a >>> 8 := by
    ext i hi
    simp
  rw [bitsteps_eight, hshift, upd, hindex]
  exact congrArg (· ^^^ _) (ht ((a ^^^ b.setWidth 32).setWidth 8).toFin)

/-- With a valid table the reduce of a byte sequence is the bitwise one (R120, R126). -/
theorem updStar_eq_foldl {t : Table} (ht : ∀ n : Fin 256, t[n] = genEntry n) (a : Word) (d : List Byte) :
    updStar t a d = d.foldl (fun a b => bitstep^[8] (a ^^^ b.setWidth 32)) a := by
  induction d generalizing a with
  | nil => rfl
  | cons b d ih => rw [updStar, ih, upd_eq_bitsteps ht, bitsteps_eq_iterate, List.foldl_cons]

/-- A valid table is `genTable` (R103). -/
theorem eq_genTable {t : Table} (ht : ∀ n : Fin 256, t[n] = genEntry n) : t = genTable :=
  Vector.ext fun i hi => (ht ⟨i, hi⟩).trans (genTable_getElem i hi).symm

/-- Outside the fault state a command whose every check passes is performed (R202, R203). -/
theorem runGuarded_perform {i : Instr} {n : Needs} {further : State → Option FaultCode} {perform : State → State}
    {s : State} (hfault : s.fault = false) (hlegal : operandLegal n.opClass i.fields.1 i.fields.2 = true)
    (hsst : n.sst = none ∨ n.sst = some s.sst) (htable : n.table = true → s.tv = true) (hfurther : further s = none) :
    runGuarded i n further perform s = .next (perform s) := by
  simp [runGuarded, hfault, (firstFailure_none ..).mpr ⟨hlegal, hsst, htable, hfurther⟩]

/-- CRC_INIT performed (R122). -/
theorem exec_crcInit {s : State} (hf : s.fault = false) (hidle : s.sst = .idle) :
    exec (.crcInit 0#24 0#32) s = .next { s with acc := initAcc } := by
  unfold exec execCrcInit
  exact runGuarded_perform hf rfl (.inr (congrArg some hidle.symm)) nofun rfl

/-- CRC_BYTE performed (R123). -/
theorem exec_crcByte {s : State} (hf : s.fault = false) (hidle : s.sst = .idle) (htv : s.tv = true) (b : Byte) :
    exec (.crcByte 0#24 (b.setWidth 32)) s = .next { s with acc := upd s.t s.acc b } := by
  have hlegal : operandLegal .b 0#24 (b.setWidth 32) = true := by simp [operandLegal]
  unfold exec execCrcByte
  simp only [byteOperand_zeroExtend]
  exact runGuarded_perform hf hlegal (.inr (congrArg some hidle.symm)) (fun _ => htv) rfl

/-- CRC_FINAL performed (R125). -/
theorem exec_crcFinal {s : State} (hf : s.fault = false) :
    exec (.crcFinal 0#24 0#32) s = .next { s with result := s.acc ^^^ xorOut } := by
  unfold exec execCrcFinal
  exact runGuarded_perform hf rfl (.inl rfl) nofun rfl

/-- One CRC_BYTE per byte folds the whole sequence into ACC (R120, R123). -/
theorem execAll_crcBytes (d : List Byte) {s : State} (hf : s.fault = false) (hidle : s.sst = .idle)
    (htv : s.tv = true) :
    execAll (d.map fun b => .crcByte 0#24 (b.setWidth 32)) s = .next { s with acc := updStar s.t s.acc d } := by
  induction d generalizing s with
  | nil => rfl
  | cons b d ih => exact (execAll_cons _ _ _ _ (exec_crcByte hf hidle htv b)).trans (ih hf hidle htv)

/-- CRC_INIT, the bytes and CRC_FINAL leave the reduce of the bytes in ACC and its final XOR in RESULT (R121). -/
theorem execAll_standaloneCrc (d : List Byte) {s : State} (hf : s.fault = false) (hidle : s.sst = .idle)
    (htv : s.tv = true) :
    execAll ([.crcInit 0#24 0#32] ++ d.map (fun b => .crcByte 0#24 (b.setWidth 32)) ++ [.crcFinal 0#24 0#32]) s =
      .next { s with acc := updStar s.t initAcc d, result := updStar s.t initAcc d ^^^ xorOut } := by
  have hbytes := (execAll_cons _ _ _ _ (exec_crcInit hf hidle)).trans
    (execAll_crcBytes d (s := { s with acc := initAcc }) hf hidle htv)
  exact (execAll_append _ _ _ _ hbytes).trans (execAll_cons _ _ _ _ (exec_crcFinal hf))

/-- Settles O15: the commands reduce over the table, which is valid, and so bit by bit. -/
theorem standaloneCrcIsTheReflectedCrc32 : Obligations.StandaloneCrcIsTheReflectedCrc32 := by
  intro s d hinv hf hidle htv
  have ht := hinv.tableValid htv
  refine ⟨updStar s.t initAcc d, updStar_eq_foldl ht initAcc d, ?_, execAll_standaloneCrc d hf hidle htv⟩
  rw [checksum, ← eq_genTable ht]
  rfl

end Sys2Proof.Machine

/-! ### What a command and a step can do

Each command has a row of checks (R202) and an effect; `exec` discards it, takes a fault or performs the effect. A step
is then a reset, a generator step, a fault, a performed command, or none of these. The registers' writers and the
invariants of R46 are read off these two case lemmas. -/

namespace Sys2Proof.Machine

/-- The row of R202 for a command. -/
def needsOf (i : Instr) : Needs := ⟨i.opClass, sstRequired i, tableRequired i⟩

/-- The further check of R202 for a command. -/
def furtherCheck : Instr → State → Option FaultCode
  | .chData _ _ => needsRem 1
  | .chDataw _ _ => needsRem 4
  | .chEnd _ _ => needsRemZero
  | .chIhdr _ _ => needsIhdrFields
  | _ => noFurther

/-- Every check of R203 passes for the command. -/
def Passes (i : Instr) (s : State) : Prop :=
  firstFailure (needsOf i) i.fields.1 i.fields.2 (furtherCheck i) s = none

/-- The commands performed with FAULT = 1 too (R206). -/
def actsInFaultState : Instr → Bool
  | .nop _ _ | .srst _ _ | .regRd _ _ => true
  | _ => false

/-- What a command does to the state once its checks pass. -/
def effect : Instr → State → State
  | .nop _ _ => id
  | .srst _ _ => resetState
  | .regRd _ imm => readRegister imm
  | .tblGen _ _ => startGen
  | .tblRd _ imm => fun s => { s with result := tableRead s.t (byteOperand imm) }
  | .crcInit _ _ => fun s => { s with acc := initAcc }
  | .crcByte _ imm => fun s => { s with acc := upd s.t s.acc (byteOperand imm) }
  | .crcWord _ imm => fun s => { s with acc := updStar s.t s.acc (be32 imm) }
  | .crcFinal _ _ => fun s => { s with result := s.acc ^^^ xorOut }
  | .sig _ _ => emit signature
  | .chLen _ imm => openChunk imm
  | .chType _ imm => putType imm
  | .chData _ imm => putByte (byteOperand imm)
  | .chDataw _ imm => putWord imm
  | .chEnd _ _ => closeChunk
  | .setW _ imm => fun s => { s with w := imm }
  | .setH _ imm => fun s => { s with h := imm }
  | .setCt _ imm => fun s => { s with ct := byteOperand imm }
  | .chIhdr _ _ => fun s => emitChunk ihdrLen ihdrType (ihdrData s) s
  | .chIend _ _ => emitChunk 0#32 iendType []

/-- A command that the fault state discards is its checks and its effect (R202, R203, R206). -/
theorem exec_eq_runGuarded {i : Instr} (h : actsInFaultState i = false) (s : State) :
    exec i s = runGuarded i (needsOf i) (furtherCheck i) (effect i) s := by
  cases i with
  | nop | srst | regRd => cases h
  | _ => rfl

/-- NOP, SRST and REG_RD are their operand check and their effect (R206). -/
theorem exec_eq_runAlways {i : Instr} (h : actsInFaultState i = true) (s : State) :
    exec i s = runAlways i i.opClass (effect i) s := by
  cases i with
  | nop | srst | regRd => rfl
  | _ => cases h

/-- The operand check is the only one of NOP, SRST and REG_RD (R202). -/
theorem passes_of_actsInFaultState {i : Instr} (h : actsInFaultState i = true) (s : State)
    (hlegal : operandLegal i.opClass i.fields.1 i.fields.2 = true) : Passes i s := by
  refine (firstFailure_none ..).mpr ?_
  cases i with
  | nop | srst | regRd => exact ⟨hlegal, .inl rfl, nofun, rfl⟩
  | _ => cases h

/-- What a command can do: be discarded, take a fault, or pass its checks and be performed (R203, R204, R206). -/
theorem exec_cases (i : Instr) (s : State) :
    (s.fault = true ∧ exec i s = .next s) ∨
    (∃ code, s.fault = false ∧ exec i s = .next (raiseFault code (encode i) s)) ∨
    (Passes i s ∧ (s.fault = true → actsInFaultState i = true) ∧ exec i s = .next (effect i s)) := by
  cases h : actsInFaultState i with
  | false =>
    rw [exec_eq_runGuarded h]
    rcases runGuarded_cases i (needsOf i) (furtherCheck i) (effect i) s with
      hdiscard | ⟨code, hf, -, hrun⟩ | ⟨hf, hpass, hrun⟩
    · exact .inl hdiscard
    · exact .inr (.inl ⟨code, hf, hrun⟩)
    · exact .inr (.inr ⟨hpass, by simp [hf], hrun⟩)
  | true =>
    rw [exec_eq_runAlways h]
    rcases runAlways_cases i i.opClass (effect i) s with ⟨hlegal, hrun⟩ | ⟨-, hdiscard⟩ | ⟨-, hf, hrun⟩
    · exact .inr (.inr ⟨passes_of_actsInFaultState h s hlegal, fun _ => rfl, hrun⟩)
    · exact .inl hdiscard
    · exact .inr (.inl ⟨.operand, hf, hrun⟩)

/-- What a passed check says: the operand is legal, SST and TV are as R202 requires, the further check passes. -/
theorem passes_iff (i : Instr) (s : State) :
    Passes i s ↔ operandLegal i.opClass i.fields.1 i.fields.2 = true ∧
      (sstRequired i = none ∨ sstRequired i = some s.sst) ∧ (tableRequired i = true → s.tv = true) ∧
      furtherCheck i s = none := firstFailure_none ..

/-- A performed command has RSV = 0 (R82). -/
theorem Passes.rsv_eq_zero {i : Instr} {s : State} (h : Passes i s) : i.fields.1 = 0#24 := by
  obtain ⟨hlegal, -⟩ := (passes_iff i s).mp h
  simp only [operandLegal, Bool.and_eq_true, beq_iff_eq] at hlegal
  exact hlegal.1

/-- A performed command has an IMM that is legal for its class (R81). -/
theorem Passes.immLegal {i : Instr} {s : State} (h : Passes i s) : immLegal i.opClass i.fields.2 = true := by
  obtain ⟨hlegal, -⟩ := (passes_iff i s).mp h
  simp only [operandLegal, Bool.and_eq_true] at hlegal
  exact hlegal.2

/-- A performed command that needs a serializer state found it (R202). -/
theorem Passes.sst_eq {i : Instr} {s : State} {st : Sst} (h : Passes i s) (hst : sstRequired i = some st) :
    s.sst = st := by
  obtain ⟨-, hsst, -⟩ := (passes_iff i s).mp h
  rw [hst] at hsst
  exact (Option.some.inj (hsst.resolve_left nofun)).symm

/-- A performed command that needs a table found TV = 1 (R202). -/
theorem Passes.tv_eq {i : Instr} {s : State} (h : Passes i s) (ht : tableRequired i = true) : s.tv = true := by
  obtain ⟨-, -, htv, -⟩ := (passes_iff i s).mp h
  exact htv ht

/-- A performed command passed its further check (R202). -/
theorem Passes.furtherCheck_eq {i : Instr} {s : State} (h : Passes i s) : furtherCheck i s = none := by
  obtain ⟨-, -, -, hfurther⟩ := (passes_iff i s).mp h
  exact hfurther

/-- A legal IMM of class B is its byte, zero-extended (R81). -/
theorem byteOperand_setWidth {imm : Word} (h : immLegal .b imm = true) : (byteOperand imm).setWidth 32 = imm := by
  simp only [immLegal, beq_iff_eq] at h
  apply BitVec.eq_of_getLsbD_eq
  intro k hk
  by_cases hlow : k < 8
  · simp [byteOperand, hlow, hk]
  · have hbit : (imm.extractLsb' 8 24).getLsbD (k - 8) = false := by simp [h]
    have hk' : k - 8 < 24 := by omega
    have hsum : 8 + (k - 8) = k := by omega
    simp only [BitVec.getLsbD_extractLsb', hk', hsum, decide_true, Bool.true_and] at hbit
    simp [byteOperand, hlow, hbit]

/-! ### Every command's effect, field by field -/

/-- REG_RD writes RESULT alone (R192). -/
theorem readRegister_frame (sel : Word) (s : State) :
    readRegister sel s = { s with result := (readRegister sel s).result } := by
  unfold readRegister
  cases regview sel s <;> rfl

/-- A generator step writes T, TV, BUSY, GEN_N, GEN_K and GEN_C alone (R102, R103). -/
theorem stepGen_frame (s : State) :
    stepGen s = { s with
      t := (stepGen s).t, tv := (stepGen s).tv, busy := (stepGen s).busy, genN := (stepGen s).genN,
      genK := (stepGen s).genK, genC := (stepGen s).genC } := by
  by_cases hk : s.genK = 7
  · by_cases hn : s.genN + 1 = 256
    · rw [stepGen_last s hk hn]
    · rw [stepGen_entry s hk hn]
  · rw [stepGen_inside s hk]

/-- The bytes of a whole chunk with its CRC over the table `t` (R140). -/
def chunkBytes (t : Table) (n ty : Word) (d : List Byte) : List Byte :=
  be32 n ++ be32 ty ++ d ++ be32 (updStar t initAcc (be32 ty ++ d) ^^^ xorOut)

/-- CH_LEN's effect as one update (R142). -/
theorem openChunk_eq (n : Word) (s : State) : openChunk n s =
    { s with out := s.out ++ be32 n, outCnt := s.outCnt + 4#32, len := n, rem := n, sst := .type } := by
  simp [openChunk, emit_eq]

/-- CH_TYPE's effect as one update (R143). -/
theorem putType_eq (t : Word) (s : State) : putType t s =
    { s with
      out := s.out ++ be32 t, outCnt := s.outCnt + 4#32, chunkType := t, acc := updStar s.t initAcc (be32 t),
      sst := .data } := by
  simp [putType, emit_eq]

/-- CH_DATA's effect as one update (R144). -/
theorem putByte_eq (b : Byte) (s : State) : putByte b s =
    { s with out := s.out ++ [b], outCnt := s.outCnt + 1#32, acc := upd s.t s.acc b, rem := s.rem - 1#32 } := by
  simp [putByte, emit_eq]

/-- CH_DATAW's effect as one update (R145). -/
theorem putWord_eq (v : Word) (s : State) : putWord v s =
    { s with
      out := s.out ++ be32 v, outCnt := s.outCnt + 4#32, acc := updStar s.t s.acc (be32 v),
      rem := s.rem - 4#32 } := by
  simp [putWord, emit_eq]

/-- CH_END's effect as one update (R146). -/
theorem closeChunk_eq (s : State) : closeChunk s =
    { s with
      out := s.out ++ be32 (s.acc ^^^ xorOut), outCnt := s.outCnt + 4#32, result := s.acc ^^^ xorOut,
      sst := .idle } := by
  simp [closeChunk, emit_eq]

/-- The effect of CH_IHDR and CH_IEND as one update (R175, R176). -/
theorem emitChunk_eq (n ty : Word) (d : List Byte) (s : State) : emitChunk n ty d s =
    { s with
      out := s.out ++ chunkBytes s.t n ty d
      outCnt := s.outCnt + BitVec.ofNat 32 (chunkBytes s.t n ty d).length
      acc := updStar s.t initAcc (be32 ty ++ d), len := n, rem := 0#32, chunkType := ty
      result := updStar s.t initAcc (be32 ty ++ d) ^^^ xorOut } := by
  simp [emitChunk, emit_eq, chunkBytes, BitVec.ofNat_add, BitVec.add_assoc]

/-- TV after a performed command other than SRST, from TV before it (R21). -/
def tvAfter : Instr → Bool → Bool
  | .tblGen _ _, _ => false
  | _, tv => tv

/-- W after a performed command other than SRST, from W before it (R30). -/
def wAfter : Instr → Word → Word
  | .setW _ imm, _ => imm
  | _, w => w

/-- H after a performed command other than SRST, from H before it (R31). -/
def hAfter : Instr → Word → Word
  | .setH _ imm, _ => imm
  | _, h => h

/-- CT after a performed command other than SRST, from CT before it (R32). -/
def ctAfter : Instr → Byte → Byte
  | .setCt _ imm, _ => byteOperand imm
  | _, ct => ct

/-- Which fields a command other than SRST leaves as they are: each where the command is no writer of it (R21 to R32),
and T, FAULT, ERR, ERRHI and ERRLO always (R22, R205). -/
theorem effect_frame {i : Instr} (hsrst : ∀ rsv imm, i ≠ .srst rsv imm) (s : State) :
    effect i s = { effect i s with
      tv := tvAfter i s.tv
      acc := bif writesAcc i then (effect i s).acc else s.acc
      result := bif writesResult i then (effect i s).result else s.result
      sst := bif writesSst i then (effect i s).sst else s.sst
      len := bif writesLen i then (effect i s).len else s.len
      rem := bif writesRem i then (effect i s).rem else s.rem
      chunkType := bif writesType i then (effect i s).chunkType else s.chunkType
      w := wAfter i s.w
      h := hAfter i s.h
      ct := ctAfter i s.ct
      t := s.t, fault := s.fault, err := s.err, errHi := s.errHi, errLo := s.errLo } := by
  cases i with
  | srst rsv imm => exact absurd rfl (hsrst rsv imm)
  | regRd rsv imm => simp only [effect]; rw [readRegister_frame]; rfl
  | sig => simp only [effect, emit_eq]; rfl
  | chLen | chType | chData | chDataw | chEnd | chIhdr | chIend =>
    simp only [effect, openChunk_eq, putType_eq, putByte_eq, putWord_eq, closeChunk_eq, emitChunk_eq]; rfl
  | _ => rfl

/-- No command writes T (R22). -/
theorem effect_t {i : Instr} (hsrst : ∀ rsv imm, i ≠ .srst rsv imm) (s : State) : (effect i s).t = s.t := by
  rw [effect_frame hsrst s]

/-- A performed command takes no fault (R205). -/
theorem effect_fault {i : Instr} (hsrst : ∀ rsv imm, i ≠ .srst rsv imm) (s : State) :
    (effect i s).fault = s.fault := by
  rw [effect_frame hsrst s]

/-- The bytes a command emits (R62, R142 to R146, R170, R175, R176). -/
def emittedBytes : Instr → State → List Byte
  | .sig _ _, _ => signature
  | .chLen _ imm, _ | .chType _ imm, _ | .chDataw _ imm, _ => be32 imm
  | .chData _ imm, _ => [byteOperand imm]
  | .chEnd _ _, s => be32 (s.acc ^^^ xorOut)
  | .chIhdr _ _, s => chunkBytes s.t ihdrLen ihdrType (ihdrData s)
  | .chIend _ _, s => chunkBytes s.t 0#32 iendType []
  | _, _ => []

/-- A command other than SRST appends its bytes to OUT and adds their number to OUTCNT (R62). -/
theorem effect_emits {i : Instr} (hsrst : ∀ rsv imm, i ≠ .srst rsv imm) (s : State) :
    (effect i s).out = s.out ++ emittedBytes i s ∧
      (effect i s).outCnt = s.outCnt + BitVec.ofNat 32 (emittedBytes i s).length := by
  cases i with
  | srst rsv imm => exact absurd rfl (hsrst rsv imm)
  | regRd rsv imm => simp only [effect]; rw [readRegister_frame]; simp [emittedBytes]
  | sig => simp [effect, emit_eq, emittedBytes]
  | chLen | chType | chData | chDataw | chEnd | chIhdr | chIend =>
    simp [effect, openChunk_eq, putType_eq, putByte_eq, putWord_eq, closeChunk_eq, emitChunk_eq, emittedBytes]
  | _ => simp [effect, emittedBytes]

/-! ### What a step can do -/

/-- What a step can end in, with the host's list `acts` left behind. -/
inductive StepOutcome (s : State) : State → Prop
  /-- The reset input or a valid SRST (R230). -/
  | reset (acts) (hreset : ResetStep s) : StepOutcome s (resetState { s with hostActs := acts })
  /-- A generator step (R102). -/
  | generate (acts) (hbusy : s.busy = true) (hno : ¬ ResetStep s) : StepOutcome s (stepGen { s with hostActs := acts })
  /-- Nothing happens, or a word is discarded (R206, R215). -/
  | hold (acts) : StepOutcome s { s with hostActs := acts }
  /-- An accepted word takes a fault (R204). -/
  | fault (acts) (code : FaultCode) (word : CmdWord) (hbusy : s.busy = false) (hfault : s.fault = false) :
      StepOutcome s (raiseFault code word { s with hostActs := acts })
  /-- An accepted command other than SRST is performed (R203). -/
  | perform (acts) (i : Instr) (haccepts : Accepts s i) (hsrst : ∀ rsv imm, i ≠ .srst rsv imm)
      (hpass : Passes i { s with hostActs := acts }) (hfault : s.fault = true → actsInFaultState i = true) :
      StepOutcome s (effect i { s with hostActs := acts })

/-- A command is accepted only with the port ready (R87). -/
theorem Accepts.busy_eq {s : State} {i : Instr} (h : Accepts s i) : s.busy = false := by
  obtain ⟨-, -, -, hbusy, -⟩ := h
  exact hbusy

/-- An accepted SRST whose check passes is a reset step (R230). -/
theorem resetStep_of_srst {s u : State} {rsv : Rsv} {imm : Word} (h : Accepts s (.srst rsv imm))
    (hpass : Passes (.srst rsv imm) u) : ResetStep s := by
  have hrsv : rsv = 0#24 := hpass.rsv_eq_zero
  have himm : imm = 0#32 := beq_iff_eq.mp hpass.immLegal
  exact .inr (hrsv ▸ himm ▸ h)

/-- What an accepted word can end in (R203). -/
theorem stepOutcome_of_execute {s s' : State} {word : CmdWord} {rest : List HostAction}
    (hacts : s.hostActs = .offer word :: rest) (hbusy : s.busy = false)
    (h : execute word { s with hostActs := rest } = .next s') : StepOutcome s s' := by
  unfold execute at h
  split at h
  next i hdecode =>
    have haccepts : Accepts s i := ⟨word, rest, hacts, hbusy, hdecode⟩
    rcases exec_cases i { s with hostActs := rest } with ⟨-, hs⟩ | ⟨code, hf, hs⟩ | ⟨hpass, hf, hs⟩
    · cases h.symm.trans hs; exact .hold rest
    · cases h.symm.trans hs; exact .fault rest code _ hbusy hf
    · cases h.symm.trans hs
      cases i with
      | srst rsv imm => exact .reset rest (resetStep_of_srst haccepts hpass)
      | _ => exact .perform rest _ haccepts nofun hpass hf
  next =>
    unfold runIllegal at h
    split at h
    next => cases h; exact .hold rest
    next hf => cases h; exact .fault rest .opcode word hbusy (Bool.eq_false_iff.mpr hf)

/-- Every step has one of the outcomes. -/
theorem stepOutcome_of_step {s s' : State} (h : step s = .next s') : StepOutcome s s' := by
  by_cases hinput : ∃ rest, s.hostActs = .resetInput :: rest
  · obtain ⟨rest, hacts⟩ := hinput
    have hs : step s = .next (resetState { s with hostActs := rest }) := by simp [step, nextActivity, hacts]
    cases h.symm.trans hs
    exact .reset rest (.inl ⟨rest, hacts⟩)
  · rcases step_cases s with ⟨rest, hacts, -⟩ | ⟨acts, hbusy, hs⟩ | ⟨word, rest, hacts, hbusy, hs⟩ | ⟨acts, -, hs⟩
    · exact absurd ⟨rest, hacts⟩ hinput
    · cases h.symm.trans hs
      have hsrst : ¬ Accepts s (.srst 0#24 0#32) := fun haccepts => by simp [haccepts.busy_eq] at hbusy
      exact .generate acts hbusy (not_or.mpr ⟨hinput, hsrst⟩)
    · exact stepOutcome_of_execute hacts hbusy (hs.symm.trans h)
    · cases h.symm.trans hs
      exact .hold acts

end Sys2Proof.Machine

/-! ### The writers of each register (R21 to R32, R36, R37) -/

namespace Sys2Proof.Machine

/-- A step that changes a register that the generator, the faults and the host leave alone is a reset or performs a
command that writes it. -/
theorem step_writer {α : Type} (reg : State → α) (P : Instr → α → Prop)
    (heffect : ∀ i s, (∀ rsv imm, i ≠ .srst rsv imm) → Passes i s → reg (effect i s) ≠ reg s → P i (reg (effect i s)))
    {s s' : State} (hstep : step s = .next s') (hne : reg s' ≠ reg s)
    (hreg : ∀ (s : State) t tv busy genN genK genC fault err errHi errLo acts,
      reg { s with t, tv, busy, genN, genK, genC, fault, err, errHi, errLo, hostActs := acts } = reg s := by
        intros; rfl) :
    ResetStep s ∨ ∃ i, Accepts s i ∧ P i (reg s') := by
  have hacts : ∀ acts, reg { s with hostActs := acts } = reg s := fun _ => hreg s ..
  cases stepOutcome_of_step hstep with
  | reset acts hreset => exact .inl hreset
  | generate acts =>
    rw [stepGen_frame] at hne
    exact absurd (hreg s ..) hne
  | hold acts => exact absurd (hacts acts) hne
  | fault acts code word => exact absurd (hreg s ..) hne
  | perform acts i haccepts hsrst hpass =>
    exact .inr ⟨i, haccepts, heffect i _ hsrst hpass (hacts acts ▸ hne)⟩

/-- The same for a register whose writers a flag of the command names. -/
theorem step_flagged_writer {α : Type} (reg : State → α) (writes : Instr → Bool)
    (hframe : ∀ {i} (_ : ∀ rsv imm, i ≠ .srst rsv imm) s,
      reg (effect i s) = bif writes i then reg (effect i s) else reg s)
    {s s' : State} (hstep : step s = .next s') (hne : reg s' ≠ reg s)
    (hreg : ∀ (s : State) t tv busy genN genK genC fault err errHi errLo acts,
      reg { s with t, tv, busy, genN, genK, genC, fault, err, errHi, errLo, hostActs := acts } = reg s := by
        intros; rfl) :
    ResetStep s ∨ ∃ i, Accepts s i ∧ writes i = true := by
  refine step_writer reg (fun i _ => writes i = true) (fun i s hsrst _ hchange => ?_) hstep hne hreg
  have hkeep := hframe hsrst s
  cases hw : writes i with
  | true => rfl
  | false =>
    rw [hw, cond_false] at hkeep
    exact absurd hkeep hchange

/-- Settles O52: a register of commands and resets, whose writers `effect_frame` names. -/
theorem onlyEightCommandsWriteAcc : Obligations.OnlyEightCommandsWriteAcc := fun _ _ =>
  step_flagged_writer State.acc writesAcc fun hsrst s => congrArg State.acc (effect_frame hsrst s)

/-- A step that enters the fault state takes a fault, and so keeps RESULT (R25, R205). -/
theorem result_of_enters_fault {s s' : State} (hstep : step s = .next s') (hf : s.fault = false)
    (hf' : s'.fault = true) : s'.result = s.result := by
  cases stepOutcome_of_step hstep with
  | reset acts => cases hf'
  | generate acts => rw [stepGen_frame]
  | hold acts | fault acts code word => rfl
  | perform acts i haccepts hsrst =>
    cases hf'.symm.trans ((effect_fault hsrst _).trans hf)

/-- Settles O51: RESULT is a register of commands and resets, and a faulting command performs no effect. -/
theorem onlySixCommandsWriteResult : Obligations.OnlySixCommandsWriteResult := by
  refine ⟨fun s s' => ?_, fun s s' => result_of_enters_fault, fun _ => rfl⟩
  exact step_flagged_writer State.result writesResult fun hsrst s => congrArg State.result (effect_frame hsrst s)

/-- Settles O53: four registers of commands and resets, whose writers `effect_frame` names. -/
theorem framerRegistersHaveTheirWriters : Obligations.FramerRegistersHaveTheirWriters := by
  refine fun s s' hstep => ⟨?_, ?_, ?_, ?_⟩
  · exact step_flagged_writer State.sst writesSst (fun hsrst s => congrArg State.sst (effect_frame hsrst s)) hstep
  · exact step_flagged_writer State.len writesLen (fun hsrst s => congrArg State.len (effect_frame hsrst s)) hstep
  · exact step_flagged_writer State.rem writesRem (fun hsrst s => congrArg State.rem (effect_frame hsrst s)) hstep
  · exact step_flagged_writer State.chunkType writesType
      (fun hsrst s => congrArg State.chunkType (effect_frame hsrst s)) hstep

/-- Only SET_W writes W (R30). -/
theorem effect_w_ne {i : Instr} {s : State} (hsrst : ∀ rsv imm, i ≠ .srst rsv imm) (hpass : Passes i s)
    (hne : (effect i s).w ≠ s.w) : i = .setW 0#24 (effect i s).w := by
  have hafter : (effect i s).w = wAfter i s.w := congrArg State.w (effect_frame hsrst s)
  cases i with
  | setW rsv imm => exact congrArg (Instr.setW · imm) hpass.rsv_eq_zero
  | _ => exact absurd hafter hne

/-- Only SET_H writes H (R31). -/
theorem effect_h_ne {i : Instr} {s : State} (hsrst : ∀ rsv imm, i ≠ .srst rsv imm) (hpass : Passes i s)
    (hne : (effect i s).h ≠ s.h) : i = .setH 0#24 (effect i s).h := by
  have hafter : (effect i s).h = hAfter i s.h := congrArg State.h (effect_frame hsrst s)
  cases i with
  | setH rsv imm => exact congrArg (Instr.setH · imm) hpass.rsv_eq_zero
  | _ => exact absurd hafter hne

/-- Only SET_CT writes CT, and it writes the byte its IMM holds (R32, R81). -/
theorem effect_ct_ne {i : Instr} {s : State} (hsrst : ∀ rsv imm, i ≠ .srst rsv imm) (hpass : Passes i s)
    (hne : (effect i s).ct ≠ s.ct) : i = .setCt 0#24 ((effect i s).ct.setWidth 32) := by
  have hafter : (effect i s).ct = ctAfter i s.ct := congrArg State.ct (effect_frame hsrst s)
  cases i with
  | setCt rsv imm => exact congrArg₂ Instr.setCt hpass.rsv_eq_zero (byteOperand_setWidth hpass.immLegal).symm
  | _ => exact absurd hafter hne

/-- Only TBL_GEN writes TV (R21, R101). -/
theorem effect_tv_ne {i : Instr} {s : State} (hsrst : ∀ rsv imm, i ≠ .srst rsv imm) (hpass : Passes i s)
    (hne : (effect i s).tv ≠ s.tv) : i = .tblGen 0#24 0#32 := by
  have hafter : (effect i s).tv = tvAfter i s.tv := congrArg State.tv (effect_frame hsrst s)
  cases i with
  | tblGen rsv imm => exact congrArg₂ Instr.tblGen hpass.rsv_eq_zero (beq_iff_eq.mp hpass.immLegal)
  | _ => exact absurd hafter hne

/-- Only a generator step changes T (R22). -/
theorem step_t_writer {s s' : State} (hstep : step s = .next s') (hne : s'.t ≠ s.t) :
    s.busy = true ∧ ¬ ResetStep s := by
  cases stepOutcome_of_step hstep with
  | generate acts hbusy hno => exact ⟨hbusy, hno⟩
  | reset acts | hold acts | fault acts => exact absurd rfl hne
  | perform acts i haccepts hsrst => exact absurd (effect_t hsrst _) hne

/-- Only a reset, TBL_GEN and a generator step change TV (R21). -/
theorem step_tv_writer {s s' : State} (hstep : step s = .next s') (hne : s'.tv ≠ s.tv) :
    ResetStep s ∨ Accepts s (.tblGen 0#24 0#32) ∨ s.busy = true := by
  cases stepOutcome_of_step hstep with
  | reset acts hreset => exact .inl hreset
  | generate acts hbusy => exact .inr (.inr hbusy)
  | hold acts | fault acts => exact absurd rfl hne
  | perform acts i haccepts hsrst hpass => exact .inr (.inl (effect_tv_ne hsrst hpass hne ▸ haccepts))

/-- Settles O54: T and TV by the step's outcome, W, H and CT as registers of one command and resets. -/
theorem tableAndParameterRegistersHaveTheirWriters : Obligations.TableAndParameterRegistersHaveTheirWriters := by
  have hsole : ∀ {s : State} {j : Instr}, (ResetStep s ∨ ∃ i, Accepts s i ∧ i = j) → ResetStep s ∨ Accepts s j :=
    Or.imp_right fun ⟨_, haccepts, hi⟩ => hi ▸ haccepts
  refine fun s s' hstep => ⟨step_t_writer hstep, step_tv_writer hstep, fun hne => hsole ?_, fun hne => hsole ?_,
    fun hne => hsole ?_⟩
  · exact step_writer State.w (fun i v => i = .setW 0#24 v) (fun _ _ => effect_w_ne) hstep hne
  · exact step_writer State.h (fun i v => i = .setH 0#24 v) (fun _ _ => effect_h_ne) hstep hne
  · exact step_writer State.ct (fun i v => i = .setCt 0#24 (v.setWidth 32)) (fun _ _ => effect_ct_ne) hstep hne

/-- Settles O49: a performed command appends its bytes, a reset keeps OUT and zeroes OUTCNT, any other step keeps both. -/
theorem outputIsNeverRetractedAndIsCounted : Obligations.OutputIsNeverRetractedAndIsCounted := by
  intro s s' hstep
  cases stepOutcome_of_step hstep with
  | reset acts hreset => exact ⟨[], by simp, .inr ⟨hreset, rfl, rfl⟩⟩
  | generate acts => rw [stepGen_frame]; exact ⟨[], by simp⟩
  | hold acts | fault acts => exact ⟨[], by simp⟩
  | perform acts i haccepts hsrst =>
    obtain ⟨hout, hcnt⟩ := effect_emits hsrst { s with hostActs := acts }
    exact ⟨_, hout, .inl hcnt⟩

end Sys2Proof.Machine

/-! ### The invariants of R46

Each outcome of a step keeps `StateInv`. A command's effect writes fields the invariants do not name, or, in an open chunk
or with a valid table, SST, LEN and REM. -/

namespace Sys2Proof.Machine

/-- The invariants do not name ACC, RESULT, TYPE, W, H, CT, ERRHI, ERRLO, OUTCNT, OUT or the host's list. -/
theorem StateInv.of_frame {s s' : State} (hinv : StateInv s)
    (hframe : s' = { s with
      acc := s'.acc, result := s'.result, chunkType := s'.chunkType, w := s'.w, h := s'.h, ct := s'.ct
      errHi := s'.errHi, errLo := s'.errLo, outCnt := s'.outCnt, out := s'.out, hostActs := s'.hostActs }) :
    StateInv s' := by
  rw [hframe]
  exact { hinv with }

/-- The reset values meet the invariants, whatever T holds (R231). -/
theorem stateInv_resetState (s : State) : StateInv (resetState s) where
  faultErr := by simp
  busyAlone := nofun
  openHasTable := by simp
  idleRem _ := rfl
  typeRem := nofun
  remLeLen := le_rfl
  errRange := by simp
  tableValid := nofun
  genRange := by simp
  genProgress := nofun

/-- A fault code is one of R200's, 1 to 7. -/
theorem FaultCode.bits_range (code : FaultCode) : code.bits ≠ 0#4 ∧ code.bits.toNat ≤ 7 := by
  cases code <;> decide

/-- A fault is taken with the generator idle and writes an ERR of R200 (R204). -/
theorem StateInv.after_raiseFault {s : State} (hinv : StateInv s) (hbusy : s.busy = false) (code : FaultCode)
    (word : CmdWord) : StateInv (raiseFault code word s) :=
  { hinv with
    faultErr := iff_of_false (by simp) code.bits_range.1
    busyAlone := by simp [hbusy]
    errRange := code.bits_range.2 }

/-- Generation starts with no chunk open and no fault (R101). -/
theorem StateInv.after_startGen {s : State} (hinv : StateInv s) (hidle : s.sst = .idle) (hf : s.fault = false) :
    StateInv (startGen s) :=
  { hinv with
    busyAlone := fun _ => ⟨rfl, hidle, hf⟩
    openHasTable := fun hopen => absurd hidle hopen
    tableValid := nofun
    genRange := ⟨Nat.zero_le _, Nat.zero_le _⟩
    genProgress := fun _ => ⟨Nat.zero_lt_succ _, rfl, nofun⟩ }

/-- The write of entry k extends the filled part of the table by that entry (R102). -/
theorem tableWrite_filled {t : Table} {k : Nat} (hfilled : ∀ n : Fin 256, n.val < k → t[n] = genEntry n)
    (n : Fin 256) (hn : n.val < k + 1) : (tableWrite t k (genEntry k))[n] = genEntry n := by
  rcases Nat.lt_succ_iff_lt_or_eq.mp hn with hlt | heq
  · have hne : k ≠ n.val := by omega
    simpa [tableWrite, hne] using hfilled n hlt
  · simp [tableWrite, heq]

/-- The eighth iteration of an entry gives the entry's value (R100, R102). -/
theorem StateInv.bitstep_genC {s : State} (hinv : StateInv s) (hbusy : s.busy = true) (hk : s.genK = 7) :
    bitstep s.genC = genEntry s.genN := by
  obtain ⟨-, hgenC, -⟩ := hinv.genProgress hbusy
  rw [hgenC, hk, ← bitsteps_succ]
  rfl

/-- A generator step inside an entry is one more iteration of it, one that finishes an entry extends the filled part of T,
and the last one leaves T filled whole (R102, R103). -/
theorem StateInv.after_stepGen {s : State} (hinv : StateInv s) (hbusy : s.busy = true) : StateInv (stepGen s) := by
  obtain ⟨hn, hgenC, hfilled⟩ := hinv.genProgress hbusy
  obtain ⟨hgenN, hgenK⟩ := hinv.genRange
  obtain ⟨htv, hidle, hf⟩ := hinv.busyAlone hbusy
  by_cases hk : s.genK = 7
  · have hwrite := tableWrite_filled hfilled
    rw [← hinv.bitstep_genC hbusy hk] at hwrite
    by_cases hlast : s.genN + 1 = 256
    · rw [stepGen_last s hk hlast]
      exact { hinv with
        busyAlone := nofun
        openHasTable := fun _ => rfl
        tableValid := fun _ n => hwrite n (by omega)
        genRange := ⟨le_rfl, Nat.zero_le _⟩
        genProgress := nofun }
    · rw [stepGen_entry s hk hlast]
      exact { hinv with
        tableValid := fun hv => absurd hv (by simp [htv])
        genRange := ⟨hn, Nat.zero_le _⟩
        genProgress := fun _ => ⟨Nat.lt_of_le_of_ne hn hlast, rfl, hwrite⟩ }
  · rw [stepGen_inside s hk]
    exact { hinv with
      genRange := ⟨hgenN, Nat.lt_of_le_of_ne hgenK hk⟩
      genProgress := fun _ => ⟨hn, by rw [bitsteps_succ, hgenC], hfilled⟩ }

/-- With a valid table SST, LEN and REM may move together, as long as they meet R46.4 to R46.6. -/
theorem StateInv.of_framer {s s' : State} (hinv : StateInv s) (htv : s.tv = true)
    (hframe : s' = { s with
      sst := s'.sst, len := s'.len, rem := s'.rem, acc := s'.acc, result := s'.result, chunkType := s'.chunkType
      outCnt := s'.outCnt, out := s'.out })
    (hidle : s'.sst = .idle → s'.rem = 0#32) (htype : s'.sst = .type → s'.rem = s'.len)
    (hle : s'.rem.toNat ≤ s'.len.toNat) : StateInv s' := by
  have hbusy : s.busy = false := by
    by_contra hb
    obtain ⟨hno, -⟩ := hinv.busyAlone (Bool.eq_true_of_not_eq_false hb)
    simp [htv] at hno
  rw [hframe]
  exact { hinv with
    busyAlone := by simp [hbusy]
    openHasTable := fun _ => htv
    idleRem := hidle
    typeRem := htype
    remLeLen := hle }

/-- A command that consumes `k` data bytes in an open chunk, with at least `k` remaining, keeps REM <= LEN. -/
theorem StateInv.rem_sub_le {s : State} (hinv : StateInv s) {k : Nat} (hk : k ≤ s.rem.toNat) :
    (s.rem - BitVec.ofNat 32 k).toNat ≤ s.len.toNat := by
  have hle := hinv.remLeLen
  have hlt := s.rem.isLt
  rw [BitVec.toNat_sub_of_le (by rw [BitVec.le_def, BitVec.toNat_ofNat]; omega)]
  omega

/-- The further check of CH_DATA and CH_DATAW passes with enough bytes remaining (R202). -/
theorem needsRem_eq_none {k : Nat} {s : State} : needsRem k s = none ↔ k ≤ s.rem.toNat := by
  simp [needsRem]

/-- The further check of CH_END passes with no byte remaining (R202). -/
theorem needsRemZero_eq_none {s : State} : needsRemZero s = none ↔ s.rem = 0#32 := by
  simp [needsRemZero]

/-- A performed command of an open chunk ran with a valid table (R46.3). -/
theorem Passes.tv_of_data {i : Instr} {s : State} (hpass : Passes i s) (hinv : StateInv s)
    (hdata : sstRequired i = some .data) : s.tv = true :=
  hinv.openHasTable (hpass.sst_eq hdata ▸ nofun)

/-- A performed command keeps the invariants. -/
theorem StateInv.after_effect {i : Instr} {s : State} (hinv : StateInv s) (hpass : Passes i s)
    (hf : s.fault = true → actsInFaultState i = true) : StateInv (effect i s) := by
  cases i with
  | nop => exact hinv
  | srst => exact stateInv_resetState s
  | regRd rsv imm => exact hinv.of_frame (by simp only [effect]; rw [readRegister_frame])
  | tblGen => exact hinv.after_startGen (hpass.sst_eq rfl) (Bool.eq_false_iff.mpr fun h => nomatch hf h)
  | sig => exact hinv.of_frame (by simp only [effect, emit_eq])
  | tblRd | crcInit | crcByte | crcWord | crcFinal | setW | setH | setCt => exact hinv.of_frame rfl
  | chLen rsv n =>
    simp only [effect, openChunk_eq]
    exact hinv.of_framer (hpass.tv_eq rfl) rfl nofun (fun _ => rfl) le_rfl
  | chType =>
    simp only [effect, putType_eq]
    exact hinv.of_framer (hpass.tv_eq rfl) rfl nofun nofun hinv.remLeLen
  | chData =>
    have hrem : 1 ≤ s.rem.toNat := needsRem_eq_none.mp hpass.furtherCheck_eq
    have hdata : s.sst = .data := hpass.sst_eq rfl
    simp only [effect, putByte_eq]
    exact hinv.of_framer (hpass.tv_of_data hinv rfl) rfl (by simp [hdata]) (by simp [hdata]) (hinv.rem_sub_le hrem)
  | chDataw =>
    have hrem : 4 ≤ s.rem.toNat := needsRem_eq_none.mp hpass.furtherCheck_eq
    have hdata : s.sst = .data := hpass.sst_eq rfl
    simp only [effect, putWord_eq]
    exact hinv.of_framer (hpass.tv_of_data hinv rfl) rfl (by simp [hdata]) (by simp [hdata]) (hinv.rem_sub_le hrem)
  | chEnd =>
    have hrem : s.rem = 0#32 := needsRemZero_eq_none.mp hpass.furtherCheck_eq
    simp only [effect, closeChunk_eq]
    exact hinv.of_framer (hpass.tv_of_data hinv rfl) rfl (fun _ => hrem) nofun hinv.remLeLen
  | chIhdr | chIend =>
    have hidle : s.sst = .idle := hpass.sst_eq rfl
    simp only [effect, emitChunk_eq]
    exact hinv.of_framer (hpass.tv_eq rfl) rfl (fun _ => rfl) (by simp [hidle]) (Nat.zero_le _)

/-- Settles O46: the power-on state is a reset state. -/
theorem powerOnStateMeetsTheInvariants : Obligations.PowerOnStateMeetsTheInvariants :=
  stateInv_resetState State.reset

/-- Settles O47: each outcome of a step keeps the invariants. -/
theorem everyStepKeepsTheInvariants : Obligations.EveryStepKeepsTheInvariants := by
  intro s s' hinv hstep
  have hacts : ∀ acts, StateInv { s with hostActs := acts } := fun acts => hinv.of_frame rfl
  cases stepOutcome_of_step hstep with
  | reset acts => exact stateInv_resetState _
  | generate acts hbusy => exact (hacts acts).after_stepGen hbusy
  | hold acts => exact hacts acts
  | fault acts code word hbusy => exact (hacts acts).after_raiseFault hbusy code word
  | perform acts i haccepts hsrst hpass hfault => exact (hacts acts).after_effect hpass hfault

/-- The invariants hold in every reachable state. -/
theorem Reachable.stateInv {s : State} (h : Reachable s) : StateInv s := by
  induction h with
  | powerOn acts => exact powerOnStateMeetsTheInvariants.of_frame rfl
  | step _ hstep hinv => exact everyStepKeepsTheInvariants _ _ hinv hstep

/-- SST's two bits are never 3 (R26, U8). -/
theorem Sst.bits_ne_three (st : Sst) : st.bits ≠ 3#2 := by
  cases st <;> decide

/-- Settles O48: the clauses of the invariant that every reachable state meets. -/
theorem reachableStatesMeetTheEightInvariants : Obligations.ReachableStatesMeetTheEightInvariants := fun s h =>
  have hinv := h.stateInv
  ⟨hinv.faultErr, hinv.busyAlone, hinv.openHasTable, hinv.idleRem, hinv.typeRem, hinv.remLeLen,
    ⟨s.sst.bits_ne_three, hinv.errRange⟩, hinv.tableValid⟩

end Sys2Proof.Machine

/-! ### REG_RD, the reset values and STATUS (R39, R42, R47) -/

namespace Sys2Proof.Machine

/-- REG_RD of a selector with a register, in any state (R192). -/
theorem exec_regRd {sel v : Word} {s : State} (hsel : sel.toNat ≤ 11) (hv : regview sel s = some v) :
    exec (.regRd 0#24 sel) s = .next { s with result := v } := by
  have hlegal : operandLegal .s 0#24 sel = true := by simp [operandLegal, immLegal, hsel]
  simp [exec, execRegRd, runAlways, Instr.fields, hlegal, readRegister, hv]

/-- A selector above 11 or an RSV other than 0 is no operand of REG_RD (R42, R82). -/
theorem operandLegal_sel_eq_false {rsv : Rsv} {sel : Word} (h : rsv ≠ 0#24 ∨ 12 ≤ sel.toNat) :
    operandLegal .s rsv sel = false := by
  rcases h with hrsv | hsel
  · simp [operandLegal, hrsv]
  · have hsel' : ¬ sel.toNat ≤ 11 := by omega
    simp [operandLegal, immLegal, hsel']

/-- Settles O36: the operand check and, where it passes, the register view. -/
theorem regRdReadsTheSelectedRegister : Obligations.RegRdReadsTheSelectedRegister := by
  refine ⟨fun sel => ?_, fun rsv sel s hf hbad => ?_, fun rsv sel s hf hbad => ?_, fun s => ?_⟩
  · rw [append_eq_commandWord, decode_commandWord]
    rfl
  · simp [FaultsWith, exec, execRegRd, runAlways, Instr.fields, operandLegal_sel_eq_false hbad, hf, raiseFault,
      FaultCode.bits]
  · simp [exec, execRegRd, runAlways, Instr.fields, operandLegal_sel_eq_false hbad, hf]
  · refine ⟨?_, ?_, ?_, ?_, ?_, ?_, ?_, ?_, ?_, ?_, ?_, ?_⟩ <;> exact exec_regRd (by decide) rfl

/-- A reset state is the power-on state with T, OUT and the host's list kept (R231, R233). -/
theorem resetState_eq (s : State) :
    resetState s = { State.reset with t := s.t, out := s.out, hostActs := s.hostActs } := rfl

/-- STATUS reads 0 after power-on (R39, R47). -/
theorem statusPort_reset : statusPort State.reset = 0#32 := by
  decide

/-- Settles O37: the record of R47, and CRC_FINAL of INIT, whose final XOR is 0. -/
theorem resetGivesTheStatedValues : Obligations.ResetGivesTheStatedValues := by
  refine ⟨rfl, statusPort_reset, fun s => ?_, ?_⟩
  · rw [← resetState_eq, exec_eq_runAlways rfl]
    rfl
  · have hxor : State.reset.acc ^^^ xorOut = 0#32 := by decide
    rw [exec_crcFinal rfl, hxor]

/-- One bit moved to place j of a word. -/
theorem getLsbD_zextBool_shiftLeft (b : Bool) (j k : Nat) :
    (zextBool b <<< j).getLsbD k = (decide (k < 32) && decide (k = j) && b) := by
  simp only [zextBool, BitVec.getLsbD_shiftLeft, BitVec.getLsbD_setWidth, BitVec.getLsbD_ofBool]
  rcases lt_trichotomy k j with h | h | h
  · simp [h, h.ne]
  · simp [h]
  · have hne : k - j ≠ 0 := by omega
    simp [h.ne', hne]

/-- A field moved to place j of a word. -/
theorem getLsbD_setWidth_shiftLeft {n : Nat} (x : BitVec n) (j k : Nat) :
    (x.setWidth 32 <<< j).getLsbD k = (decide (k < 32) && !decide (k < j) && x.getLsbD (k - j)) := by
  simp only [BitVec.getLsbD_shiftLeft, BitVec.getLsbD_setWidth]
  by_cases hk : k < 32
  · have hlt : k - j < 32 := by omega
    simp [hk, hlt]
  · simp [hk]

/-- Bit k of STATUS: one of the five fields at its place, or 0 (R39). -/
theorem getLsbD_statusPort (s : State) (k : Nat) :
    (statusPort s).getLsbD k = (decide (k < 32) &&
      (decide (k = 0) && s.busy || decide (k = 1) && s.tv || decide (k = 2) && s.fault ||
        !decide (k < 4) && s.err.getLsbD (k - 4) || !decide (k < 8) && s.sst.bits.getLsbD (k - 8))) := by
  have hbusy := getLsbD_zextBool_shiftLeft s.busy 0 k
  rw [BitVec.shiftLeft_zero] at hbusy
  simp only [statusPort, statusWord, BitVec.getLsbD_or, hbusy, getLsbD_zextBool_shiftLeft,
    getLsbD_setWidth_shiftLeft, Bool.and_or_distrib_left, Bool.and_assoc]

/-- ERR stands at bits 7:4 of STATUS (R39). -/
theorem statusPort_err (s : State) : (statusPort s).extractLsb' 4 4 = s.err := by
  apply BitVec.eq_of_getLsbD_eq
  intro k hk
  have h1 : 4 + k ≠ 1 := by omega
  have h2 : 4 + k ≠ 2 := by omega
  have h8 : 4 + k < 8 := by omega
  have h32 : 4 + k < 32 := by omega
  rw [BitVec.getLsbD_extractLsb', getLsbD_statusPort]
  simp [hk, h1, h2, h8, h32]

/-- SST stands at bits 9:8 of STATUS (R39). -/
theorem statusPort_sst (s : State) : (statusPort s).extractLsb' 8 2 = s.sst.bits := by
  apply BitVec.eq_of_getLsbD_eq
  intro k hk
  have h1 : 8 + k ≠ 1 := by omega
  have h2 : 8 + k ≠ 2 := by omega
  have h4 : ¬ 8 + k < 4 := by omega
  have herr : 4 ≤ 8 + k - 4 := by omega
  have h32 : 8 + k < 32 := by omega
  rw [BitVec.getLsbD_extractLsb', getLsbD_statusPort]
  simp [hk, h1, h2, h4, h32, BitVec.getLsbD_of_ge _ _ herr]

/-- Bits 10 and up of STATUS are 0 (R39). -/
theorem statusPort_high (s : State) {k : Nat} (hk : 10 ≤ k) : (statusPort s).getLsbD k = false := by
  have h0 : k ≠ 0 := by omega
  have h1 : k ≠ 1 := by omega
  have h2 : k ≠ 2 := by omega
  have herr : 4 ≤ k - 4 := by omega
  have hsst : 2 ≤ k - 8 := by omega
  simp [getLsbD_statusPort, h0, h1, h2, BitVec.getLsbD_of_ge _ _ herr, BitVec.getLsbD_of_ge _ _ hsst]

/-- Settles O55: bit k of STATUS at each place, and its value at power-on. -/
theorem statusHasTheStatedLayout : Obligations.StatusHasTheStatedLayout := by
  refine ⟨fun s => ⟨?_, ?_, ?_, ?_, statusPort_err s, statusPort_sst s, fun _ => statusPort_high s⟩, statusPort_reset⟩
  all_goals
    rw [getLsbD_statusPort]
    simp

end Sys2Proof.Machine

/-! ### The encoding (R80 to R84, R88)

A command's word decodes by its opcode and its two fields, and a decoded word has the opcode and the fields of what it
decodes to; so decoding and encoding undo each other, and a word fails to decode exactly when no command has its OP. -/

namespace Sys2Proof.Machine

/-- A command's opcode and fields select that command (R83). -/
theorem decodeFields_instr (i : Instr) : decodeFields i.opcode i.fields.1 i.fields.2 = .ok i := by
  cases i <;> rfl

/-- Decoding undoes encoding (R80, R83). -/
@[simp] theorem decode_encode (i : Instr) : decode (encode i) = .ok i := by
  rw [encode, decode_commandWord, decodeFields_instr]

/-- No two commands share a word (R80, R83). -/
theorem encode_injective : Function.Injective encode := fun i j h => by
  simpa using congrArg decode h

/-- Settles O4: the opcode and the fields of a command select it, so its word does. -/
theorem decodeOfEncodeIsTheCommand : Obligations.DecodeOfEncodeIsTheCommand :=
  ⟨decode_encode, fun _ _ h => encode_injective h⟩

/-- What fields decode to has that opcode and those two fields (R83, R88). -/
theorem eq_of_decodeFields_eq_ok {op : BitVec 8} {rsv : Rsv} {imm : Word} {i : Instr}
    (h : decodeFields op rsv imm = .ok i) : i.opcode = op ∧ i.fields = (rsv, imm) := by
  unfold decodeFields at h
  split at h
  case h_21 => cases h
  all_goals
    next hop =>
      cases h
      exact ⟨BitVec.eq_of_toNat_eq hop.symm, rfl⟩

/-- Encoding undoes decoding (R80, R83, R88). -/
theorem encode_of_decode_eq_ok {word : CmdWord} {i : Instr} (h : decode word = .ok i) : encode i = word := by
  obtain ⟨hop, hfields⟩ := eq_of_decodeFields_eq_ok h
  rw [encode, hop, hfields, commandWord_fields]

/-- Settles O5: a word is the word of its fields, which are those of the command. -/
theorem encodeOfDecodeIsTheWord : Obligations.EncodeOfDecodeIsTheWord := fun _ _ => encode_of_decode_eq_ok

/-- Settles O1: each word is the encoding of the command named beside it. -/
theorem everyAssignedOpcodeDecodes : Obligations.EveryAssignedOpcodeDecodes :=
  ⟨fun rsv imm =>
    ⟨decode_encode (.nop rsv imm), decode_encode (.srst rsv imm), decode_encode (.regRd rsv imm),
      decode_encode (.tblGen rsv imm), decode_encode (.tblRd rsv imm), decode_encode (.crcInit rsv imm),
      decode_encode (.crcByte rsv imm), decode_encode (.crcWord rsv imm), decode_encode (.crcFinal rsv imm),
      decode_encode (.sig rsv imm), decode_encode (.chLen rsv imm), decode_encode (.chType rsv imm),
      decode_encode (.chData rsv imm), decode_encode (.chDataw rsv imm), decode_encode (.chEnd rsv imm),
      decode_encode (.setW rsv imm), decode_encode (.setH rsv imm), decode_encode (.setCt rsv imm),
      decode_encode (.chIhdr rsv imm), decode_encode (.chIend rsv imm)⟩,
    fun _ _ => by simp only [Instr.opClass, and_self]⟩

/-- No command's opcode is on R84's list. -/
theorem illegalOpcodeValue_opcode (i : Instr) : illegalOpcodeValue i.opcode.toNat = false := by
  cases i <;> rfl

/-- An OP on R84's list fails to decode. -/
theorem exists_decodeFields_eq_error {op : BitVec 8} (h : illegalOpcodeValue op.toNat = true) (rsv : Rsv) (imm : Word) :
    ∃ e, decodeFields op rsv imm = .error e := by
  cases hd : decodeFields op rsv imm with
  | error e => exact ⟨e, rfl⟩
  | ok i =>
    obtain ⟨rfl, -⟩ := eq_of_decodeFields_eq_ok hd
    simp [illegalOpcodeValue_opcode] at h

/-- An OP that fails to decode is none of R83's, and so one of R84's. -/
theorem illegal_of_decodeFields_eq_error {op : BitVec 8} {rsv : Rsv} {imm : Word} {e : DecodeError}
    (h : decodeFields op rsv imm = .error e) : illegalOpcodeValue op.toNat = true := by
  have hlt : op.toNat < 256 := op.isLt
  unfold decodeFields at h
  split at h
  case h_21 =>
    simp only [illegalOpcodeValue, Bool.or_eq_true, decide_eq_true_eq, imp_false] at *
    omega
  all_goals cases h

/-- A word fails to decode exactly when its OP is on R84's list (R84, R88). -/
theorem exists_decode_eq_error_iff (op : BitVec 8) (rsv : Rsv) (imm : Word) :
    (∃ e, decode (op ++ rsv ++ imm) = .error e) ↔ illegalOpcodeValue op.toNat = true := by
  rw [append_eq_commandWord, decode_commandWord]
  exact ⟨fun ⟨_, h⟩ => illegal_of_decodeFields_eq_error h, fun h => exists_decodeFields_eq_error h rsv imm⟩

/-- R84 lists 236 values. -/
theorem length_illegalOpcodeValues : ((List.range 256).filter illegalOpcodeValue).length = 236 := by
  decide +kernel

/-- Settles O2: the list is the complement of the commands' opcodes. -/
theorem illegalOpcodesAreExactlyThoseListed : Obligations.IllegalOpcodesAreExactlyThoseListed :=
  ⟨exists_decode_eq_error_iff, length_illegalOpcodeValues⟩

/-- An accepted word with an illegal OP runs as one (R84). -/
theorem execute_of_illegal {op : BitVec 8} (h : illegalOpcodeValue op.toNat = true) (rsv : Rsv) (imm : Word)
    (s : State) : execute (op ++ rsv ++ imm) s = runIllegal (commandWord op rsv imm) s := by
  obtain ⟨e, he⟩ := (exists_decode_eq_error_iff op rsv imm).mpr h
  rw [execute, he]
  rfl

/-- Settles O3: `runIllegal` in its two cases of FAULT. -/
theorem illegalOpcodeFaultsOrIsDiscarded : Obligations.IllegalOpcodeFaultsOrIsDiscarded := by
  refine ⟨exists_decode_eq_error_iff, fun op rsv imm s h hf => ?_, fun op rsv imm s h hf => ?_,
    length_illegalOpcodeValues⟩ <;> rw [execute_of_illegal h]
  · simp [runIllegal, hf, raiseFault, commandWord_hi, commandWord_lo, FaultCode.bits]
  · simp [runIllegal, hf]

end Sys2Proof.Machine

/-! ### The command port (R87, R203) -/

namespace Sys2Proof.Machine

/-- A word offered at the ready port is taken and run (R87). -/
theorem step_offer_ready {s : State} {word : CmdWord} {rest : List HostAction} (hbusy : s.busy = false)
    (hacts : s.hostActs = .offer word :: rest) : step s = execute word { s with hostActs := rest } := by
  simp [step, nextActivity, hacts, portReady, hbusy]

/-- A word offered while the generator runs stays where it is (R87, R235). -/
theorem step_offer_busy {s : State} {word : CmdWord} {rest : List HostAction} (hbusy : s.busy = true)
    (hacts : s.hostActs = .offer word :: rest) : step s = .next (stepGen s) := by
  simp [step, nextActivity, hacts, portReady, hbusy]

/-- With nothing offered the generator runs too (R102). -/
theorem step_nil_busy {s : State} (hbusy : s.busy = true) (hacts : s.hostActs = []) :
    step s = .next (stepGen s) := by
  simp [step, nextActivity, undisturbed, hacts, hbusy]

/-- A generator step neither reads nor writes the host's list (R102). -/
theorem stepGen_setHostActs (s : State) (acts : List HostAction) :
    stepGen { s with hostActs := acts } = { stepGen s with hostActs := acts } := by
  by_cases hk : s.genK = 7
  · by_cases hn : s.genN + 1 = 256
    · rw [stepGen_last s hk hn, stepGen_last { s with hostActs := acts } hk hn]
    · rw [stepGen_entry s hk hn, stepGen_entry { s with hostActs := acts } hk hn]
  · rw [stepGen_inside s hk, stepGen_inside { s with hostActs := acts } hk]

/-- No command's effect touches the host's list. -/
theorem effect_hostActs (i : Instr) (s : State) : (effect i s).hostActs = s.hostActs := by
  cases i with
  | regRd => rw [effect, readRegister_frame]
  | sig => rw [effect, emit_eq]
  | chLen | chType | chData | chDataw | chEnd | chIhdr | chIend =>
    simp only [effect, openChunk_eq, putType_eq, putByte_eq, putWord_eq, closeChunk_eq, emitChunk_eq]
  | _ => rfl

/-- An accepted word gives a next state and leaves the host's list as it is (R201). -/
theorem execute_hostActs (word : CmdWord) (s : State) :
    ∃ t, execute word s = .next t ∧ t.hostActs = s.hostActs := by
  unfold execute
  cases decode word with
  | ok i =>
    rcases exec_cases i s with ⟨-, h⟩ | ⟨code, -, h⟩ | ⟨-, -, h⟩
    · exact ⟨s, h, rfl⟩
    · exact ⟨_, h, rfl⟩
    · exact ⟨_, h, effect_hostActs i s⟩
  | error e =>
    cases hf : s.fault with
    | true => exact ⟨s, by simp [runIllegal, hf], rfl⟩
    | false => exact ⟨raiseFault .opcode word s, by simp [runIllegal, hf], rfl⟩

/-- Settles O7: the generator step ignores the host's list, and an accepted word leaves what comes after it. -/
theorem wordIsAcceptedExactlyWhenPortReady : Obligations.WordIsAcceptedExactlyWhenPortReady := by
  refine ⟨fun s word rest hbusy => ⟨stepGen s, ?_, ?_⟩, fun s word rest hbusy => ?_⟩
  · rw [← stepGen_setHostActs]
    exact step_nil_busy hbusy rfl
  · rw [← stepGen_setHostActs]
    exact step_offer_busy hbusy rfl
  · have hstep : step { s with hostActs := .offer word :: rest } = execute word { s with hostActs := rest } :=
      step_offer_ready hbusy rfl
    rw [hstep]
    exact execute_hostActs word _

/-- Settles O6: the word is taken, and a decoded word runs as its command. -/
theorem stepRunsTheAcceptedCommand : Obligations.StepRunsTheAcceptedCommand := by
  intro s word rest i hbusy hacts hdecode
  rw [step_offer_ready hbusy hacts, execute, hdecode]

end Sys2Proof.Machine

/-! ### The assembler (R81, R82, R89, R90) -/

namespace Sys2Proof.Machine

/-- A command is valid exactly when its operand check passes (R81, R82). -/
theorem wellFormed_eq_operandLegal (i : Instr) : WellFormed i = operandLegal i.opClass i.fields.1 i.fields.2 := by
  cases i with
  | nop | srst | tblGen | crcInit | crcFinal | sig | chEnd | chIhdr | chIend => exact operandLegal_none ..
  | tblRd | crcByte | chData | setCt => exact operandLegal_byte ..
  | crcWord | chLen | chType | chDataw | setW | setH => exact operandLegal_word ..
  | regRd => exact operandLegal_sel ..

/-- A mnemonic's command has the mnemonic's class, RSV = 0 and the given IMM (R83, R89). -/
theorem mnemonicOf_spec {name : String} {c : OpClass} {mk : Word → Instr} (h : mnemonicOf name = some (c, mk))
    (imm : Word) : (mk imm).opClass = c ∧ (mk imm).fields = (0#24, imm) := by
  unfold mnemonicOf at h
  split at h <;> cases h <;> exact ⟨rfl, rfl⟩

/-- A bounded number is within its limit (R89). -/
theorem le_of_bounded {limit n k : Nat} (h : bounded limit n = .ok k) : k ≤ limit := by
  unfold bounded at h
  split at h <;> cases h
  assumption

/-- An ASCII code is below 128 (R89). -/
theorem lt_of_asciiCode {c : Char} {k : Nat} (h : asciiCode c = .ok k) : k < 128 := by
  unfold asciiCode at h
  split at h <;> cases h
  assumption

/-- A number below 256 is a legal IMM of class B (R81). -/
theorem immLegal_byte_ofNat {k : Nat} (h : k < 256) : immLegal .b (BitVec.ofNat 32 k) = true := by
  have himm : BitVec.ofNat 32 k = (BitVec.ofNat 8 k).setWidth 32 := by
    apply BitVec.eq_of_toNat_eq
    simp only [BitVec.toNat_ofNat, BitVec.toNat_setWidth]
    omega
  rw [himm, immLegal_zeroExtend]

/-- A number up to 11 is a legal IMM of class S (R81). -/
theorem immLegal_sel_ofNat {k : Nat} (h : k ≤ 11) : immLegal .s (BitVec.ofNat 32 k) = true := by
  simp only [immLegal, BitVec.toNat_ofNat, decide_eq_true_eq]
  omega

/-- What the assembler takes as an operand is a legal IMM of the class (R81, R89). -/
theorem immLegal_of_assembleImm {c : OpClass} {ops : List AsmOperand} {k : Nat} (h : assembleImm c ops = .ok k) :
    immLegal c (BitVec.ofNat 32 k) = true := by
  unfold assembleImm at h
  split at h
  · cases h
    rfl
  · exact immLegal_byte_ofNat (Nat.lt_succ_of_le (le_of_bounded h))
  · exact immLegal_byte_ofNat ((lt_of_asciiCode h).trans (by decide))
  · rfl
  · rfl
  · exact immLegal_sel_ofNat (le_of_bounded h)
  · cases h

/-- Settles O59: the command has the class of its mnemonic and RSV = 0, and its IMM was checked for that class. -/
theorem assembledCommandsAreValid : Obligations.AssembledCommandsAreValid := by
  intro line i h
  unfold assembleCommand at h
  split at h
  · cases h
  · next c mk hname =>
    cases himm : assembleImm c line.operands with
    | error e => simp [himm, Except.map] at h
    | ok k =>
      rw [himm] at h
      cases h
      obtain ⟨hclass, hfields⟩ := mnemonicOf_spec hname (BitVec.ofNat 32 k)
      rw [wellFormed_eq_operandLegal, hclass, hfields]
      exact ⟨by simp [operandLegal, immLegal_of_assembleImm himm], rfl⟩

/-- Settles O58: each name and operand form selects its own row of `expand`. -/
theorem pseudoInstructionsExpandExactly : Obligations.PseudoInstructionsExpandExactly :=
  ⟨fun _ _ => rfl, fun _ => rfl, fun _ => rfl, fun _ => rfl, fun _ _ _ => rfl, fun _ => rfl⟩

end Sys2Proof.Machine

/-! ### The CRC table and its generator (R100 to R105, R241)

`j` generator steps after the acceptance of TBL_GEN the first `j / 8` entries stand in the table and entry `j / 8` is
`j % 8` iterations in; after 2048 steps the state is the collapsed transition of R104. -/

namespace Sys2Proof.Machine

/-! #### The checks of a command that the fault state discards (R202, R203, R206) -/

/-- A discardable command whose first failing check is `code` takes that fault (R203, R204). -/
theorem faultsWith_of_firstFailure {i : Instr} {s : State} {code : FaultCode} (hi : actsInFaultState i = false)
    (hf : s.fault = false)
    (hfail : firstFailure (needsOf i) i.fields.1 i.fields.2 (furtherCheck i) s = some code) :
    FaultsWith i code.bits s := by
  rw [FaultsWith, exec_eq_runGuarded hi]
  simp only [runGuarded, hf, hfail]
  rfl

/-- A bad operand takes E_OPERAND (R202, R203). -/
theorem faultsWith_operand {i : Instr} {s : State} (hi : actsInFaultState i = false) (hf : s.fault = false)
    (hbad : operandLegal i.opClass i.fields.1 i.fields.2 = false) : FaultsWith i 2#4 s :=
  faultsWith_of_firstFailure (code := .operand) hi hf (if_pos hbad)

/-- With a legal operand, another serializer state than the required one takes E_STATE (R202, R203). -/
theorem faultsWith_state {i : Instr} {s : State} {st : Sst} (hi : actsInFaultState i = false) (hf : s.fault = false)
    (hlegal : operandLegal i.opClass i.fields.1 i.fields.2 = true) (hst : sstRequired i = some st) (hne : s.sst ≠ st) :
    FaultsWith i 3#4 s :=
  faultsWith_of_firstFailure (code := .state) hi hf (by simp [firstFailure, needsOf, hlegal, hst, hne.symm])

/-- With a legal operand and the required serializer state, TV = 0 takes E_TABLE where a table is required (R202,
R203). -/
theorem faultsWith_table {i : Instr} {s : State} (hi : actsInFaultState i = false) (hf : s.fault = false)
    (hlegal : operandLegal i.opClass i.fields.1 i.fields.2 = true)
    (hsst : sstRequired i = none ∨ sstRequired i = some s.sst) (htable : tableRequired i = true) (htv : s.tv = false) :
    FaultsWith i 4#4 s :=
  faultsWith_of_firstFailure (code := .table) hi hf (by
    rcases hsst with hsst | hsst <;> simp [firstFailure, needsOf, hlegal, hsst, htable, htv])

/-- The fault state discards every command but NOP, SRST and REG_RD (R206). -/
theorem exec_discarded {i : Instr} {s : State} (hi : actsInFaultState i = false) (hf : s.fault = true) :
    exec i s = .next s := by
  simp [exec_eq_runGuarded hi, runGuarded, hf]

/-- Class N refuses any other RSV or IMM than 0 (R81, R82). -/
theorem operandLegal_none_eq_false {rsv : Rsv} {imm : Word} (h : rsv ≠ 0#24 ∨ imm ≠ 0#32) :
    operandLegal .n rsv imm = false := by
  rcases h with hrsv | himm
  · simp [operandLegal, hrsv]
  · simp [operandLegal, immLegal, himm]

/-- Class B refuses any other RSV than 0 and an IMM above 255 (R81, R82). -/
theorem operandLegal_byte_eq_false {rsv : Rsv} {imm : Word} (h : rsv ≠ 0#24 ∨ 256 ≤ imm.toNat) :
    operandLegal .b rsv imm = false := by
  rw [← operandLegal_byte]
  rcases h with hrsv | himm
  · simp [wfByte, hrsv]
  · simp [wfByte, himm]

/-- A zero-extended byte with RSV = 0 is a legal operand of class B (R81, R82). -/
theorem operandLegal_byte_setWidth (b : Byte) : operandLegal .b 0#24 (b.setWidth 32) = true := by
  simp [operandLegal]

/-- A word that ends in 24 zero bits and a byte has that byte, zero-extended, as its IMM (R80, R81). -/
theorem append_byte_eq_commandWord (op : BitVec 8) (rsv : Rsv) (b : Byte) :
    (op ++ rsv ++ 0#24 ++ b : CmdWord) = commandWord op rsv (b.setWidth 32) := by
  have hb : b.setWidth 32 = 0#24 ++ b := BitVec.setWidth_eq_append (by decide)
  rw [commandWord, hb]
  exact BitVec.append_assoc (x₁ := op ++ rsv)

/-! #### The table function (R100) -/

/-- Settles O12: the model's iteration is the rule's, iterated. -/
theorem tableFunctionIsEightIterations : Obligations.TableFunctionIsEightIterations :=
  ⟨fun n _ => bitsteps_eq_iterate 8 (BitVec.ofNat 32 n), by decide, by decide, by decide, by decide, by decide⟩

/-! #### The generator's step (R102) -/

/-- A table write within range replaces that entry (R102). -/
theorem tableWrite_eq_set (t : Table) {n : Nat} (h : n < 256) (v : Word) : tableWrite t n v = t.set n v h :=
  Vector.ext fun i hi => by rw [tableWrite, Vector.getElem_setIfInBounds hi, Vector.getElem_set]

/-- With nothing offered and the generator at rest the block holds its state (R215). -/
theorem step_nil_ready {s : State} (hbusy : s.busy = false) (hacts : s.hostActs = []) : step s = .next s := by
  simp [step, nextActivity, undisturbed, hacts, hbusy]

/-- Settles O10: `stepGen` in its three cases, taken because BUSY = 1 and nothing is offered. -/
theorem generatorIterationStep : Obligations.GeneratorIterationStep := by
  refine ⟨fun s hbusy hacts => ?_, fun s c hbusy hacts hc => ⟨fun hk => ?_, fun h hk hn => ?_, fun h hk hn => ?_⟩⟩
  · exact step_nil_ready hbusy hacts
  all_goals rw [step_nil_busy hbusy hacts, show c = bitstep s.genC from hc]
  · rw [stepGen_inside s hk]
  · rw [stepGen_entry s hk (by omega), tableWrite_eq_set s.t h]
  · rw [stepGen_last s hk (by omega), tableWrite_eq_set s.t h]

/-! #### A whole generation (R103, R104) -/

/-- A table after the generator has written its first `n` entries (R102). -/
def filledTo (t : Table) : Nat → Table
  | 0 => t
  | n + 1 => tableWrite (filledTo t n) n (genEntry n)

/-- The written entries hold gen_entry. -/
theorem filledTo_getElem (t : Table) (k : Nat) : ∀ n : Fin 256, n.val < k → (filledTo t k)[n] = genEntry n := by
  induction k with
  | zero => exact fun n hn => absurd hn n.val.not_lt_zero
  | succ k ih => exact tableWrite_filled ih

/-- With all 256 entries written the table is the valid one, whatever it held (R103). -/
theorem filledTo_all (t : Table) : filledTo t 256 = genTable :=
  eq_genTable fun n => filledTo_getElem t 256 n n.isLt

/-- The state `j` generator steps into a generation that began in `s`. -/
def generatorAt (s : State) (j : Nat) : State :=
  { s with
    t := filledTo s.t (j / 8), tv := false, busy := true, genN := j / 8, genK := j % 8
    genC := bitsteps (j % 8) (BitVec.ofNat 32 (j / 8)) }

/-- The collapsed transition of R104. -/
def collapsedGen (s : State) : State :=
  { s with t := genTable, tv := true, busy := false, genN := 256, genK := 0, genC := 0#32 }

@[simp] theorem generatorAt_busy (s : State) (j : Nat) : (generatorAt s j).busy = true := rfl
@[simp] theorem generatorAt_tv (s : State) (j : Nat) : (generatorAt s j).tv = false := rfl
@[simp] theorem generatorAt_hostActs (s : State) (j : Nat) : (generatorAt s j).hostActs = s.hostActs := rfl
@[simp] theorem collapsedGen_busy (s : State) : (collapsedGen s).busy = false := rfl
@[simp] theorem collapsedGen_hostActs (s : State) : (collapsedGen s).hostActs = s.hostActs := by
  rw [collapsedGen]

/-- The eighth iteration gives the entry (R100). -/
theorem bitstep_bitsteps_seven (n : Nat) : bitstep (bitsteps 7 (BitVec.ofNat 32 n)) = genEntry n :=
  (bitsteps_succ 7 _).symm

/-- A generator step before the last goes one place on: to the next iteration, or with the entry written to the next
entry (R102). -/
theorem stepGen_generatorAt (s : State) {j : Nat} (hj : j < 2047) :
    stepGen (generatorAt s j) = generatorAt s (j + 1) := by
  by_cases hk : j % 8 = 7
  · have hdiv : (j + 1) / 8 = j / 8 + 1 := by omega
    have hmod : (j + 1) % 8 = 0 := by omega
    have hn : j / 8 + 1 ≠ 256 := by omega
    rw [stepGen_entry _ hk hn]
    simp only [generatorAt, hk, hdiv, hmod, bitstep_bitsteps_seven]
    rfl
  · have hdiv : (j + 1) / 8 = j / 8 := by omega
    have hmod : (j + 1) % 8 = j % 8 + 1 := by omega
    rw [stepGen_inside _ hk]
    simp only [generatorAt, hdiv, hmod, bitsteps_succ]

/-- The last generator step writes entry 255 and completes the generation (R102, R103). -/
theorem stepGen_generatorAt_last (s : State) : stepGen (generatorAt s 2047) = collapsedGen s := by
  rw [stepGen_last _ rfl rfl, collapsedGen, ← filledTo_all s.t]
  simp only [generatorAt, Nat.reduceDiv, Nat.reduceMod, bitstep_bitsteps_seven]
  rfl

/-- A host that does nothing but offer words leaves a running generator alone (R87, R102, R235). -/
theorem step_busy_of_offers {s : State} {ws : List CmdWord} (hbusy : s.busy = true)
    (hacts : s.hostActs = ws.map .offer) : step s = .next (stepGen s) := by
  cases ws with
  | nil => exact step_nil_busy hbusy hacts
  | cons w ws => exact step_offer_busy hbusy hacts

/-- The next step of a generation, before the words still offered (R102). -/
theorem step_generatorAt {s : State} {ws : List CmdWord} (hacts : s.hostActs = ws.map .offer) (j : Nat) :
    step (generatorAt s j) = .next (stepGen (generatorAt s j)) :=
  step_busy_of_offers (generatorAt_busy s j) ((generatorAt_hostActs s j).trans hacts)

/-- A run goes on by one step at its end. -/
theorem runSteps_snoc {k : Nat} {s u v : State} (hrun : runSteps k s = .next u) (hstep : step u = .next v) :
    runSteps (k + 1) s = .next v := by
  rw [runSteps_add k 1 s u hrun]
  exact runSteps_succ 0 u v hstep

/-- `j` steps, fewer than 2048, after TBL_GEN's effect (R102). -/
theorem runSteps_startGen {s : State} {ws : List CmdWord} (hacts : s.hostActs = ws.map .offer) {j : Nat}
    (hj : j < 2048) : runSteps j (startGen s) = .next (generatorAt s j) := by
  induction j with
  | zero => rfl
  | succ j ih =>
    rw [← stepGen_generatorAt s (by omega)]
    exact runSteps_snoc (ih (by omega)) (step_generatorAt hacts j)

/-- A generation takes 2048 steps (R103). -/
theorem runSteps_startGen_whole {s : State} {ws : List CmdWord} (hacts : s.hostActs = ws.map .offer) :
    runSteps 2048 (startGen s) = .next (collapsedGen s) := by
  rw [← stepGen_generatorAt_last]
  exact runSteps_snoc (runSteps_startGen hacts (by decide)) (step_generatorAt hacts 2047)

/-! #### TBL_GEN (R101, R103) -/

/-- The word of TBL_GEN (R83, R101). -/
theorem decode_tblGen_word : decode 0x1000000000000000#64 = .ok (.tblGen 0#24 0#32) :=
  decode_encode (.tblGen 0#24 0#32)

/-- TBL_GEN performed (R101). -/
theorem exec_tblGen {s : State} (hf : s.fault = false) (hidle : s.sst = .idle) :
    exec (.tblGen 0#24 0#32) s = .next (startGen s) := by
  unfold exec execTblGen
  exact runGuarded_perform hf rfl (.inr (congrArg some hidle.symm)) nofun rfl

/-- An offered TBL_GEN starts the generation in the step that accepts it (R87, R101). -/
theorem step_offer_tblGen {s : State} {rest : List HostAction} (hbusy : s.busy = false) (hf : s.fault = false)
    (hidle : s.sst = .idle) :
    step { s with hostActs := .offer 0x1000000000000000#64 :: rest } =
      .next (startGen { s with hostActs := rest }) := by
  rw [step_offer_ready (s := { s with hostActs := .offer 0x1000000000000000#64 :: rest }) hbusy rfl, execute,
    decode_tblGen_word]
  exact exec_tblGen hf hidle

/-- Settles O11: the acceptance, then the generator's run of 2048 steps. -/
theorem generationTakes2048StepsAndFillsTheTable : Obligations.GenerationTakes2048StepsAndFillsTheTable := by
  intro s hbusy hf hidle
  have haccept := step_offer_tblGen (rest := []) hbusy hf hidle
  have hacts : ({ s with hostActs := [] } : State).hostActs = ([] : List CmdWord).map .offer := rfl
  refine ⟨fun k hk => ⟨_, (runSteps_succ k _ _ haccept).trans (runSteps_startGen hacts hk),
    generatorAt_busy _ k, generatorAt_tv _ k⟩, ?_⟩
  exact (runSteps_succ 2048 _ _ haccept).trans (runSteps_startGen_whole hacts)

/-- Settles O16: the checks, the effect, and the example as a whole generation from reset. -/
theorem tblGenStartsGeneration : Obligations.TblGenStartsGeneration := by
  refine ⟨decode_tblGen_word, fun rsv imm s hf hbad => ?_, fun s hf hsst => ?_, fun s => exec_tblGen,
    fun rsv imm s hf => ?_, ?_⟩
  · exact faultsWith_operand rfl hf (operandLegal_none_eq_false hbad)
  · exact faultsWith_state rfl hf rfl rfl hsst
  · exact exec_discarded rfl hf
  · have hrun := runSteps_startGen_whole (s := State.reset) (ws := []) rfl
    exact ⟨_, _, exec_tblGen rfl rfl, by decide, rfl, hrun, by decide, rfl⟩

/-! #### TBL_RD (R105) -/

/-- TBL_RD performed, with any SST (R105). -/
theorem exec_tblRd {s : State} (hf : s.fault = false) (htv : s.tv = true) (i : Byte) :
    exec (.tblRd 0#24 (i.setWidth 32)) s = .next { s with result := tableRead s.t i } := by
  unfold exec execTblRd
  simp only [byteOperand_zeroExtend]
  exact runGuarded_perform hf (operandLegal_byte_setWidth i) (.inl rfl) (fun _ => htv) rfl

/-- TBL_RD reads gen_entry from a valid table (R105). -/
theorem exec_tblRd_of_valid {s : State} (hf : s.fault = false) (htv : s.tv = true)
    (ht : ∀ n : Fin 256, s.t[n] = genEntry n) (i : Byte) :
    exec (.tblRd 0#24 (i.setWidth 32)) s = .next { s with result := genEntry i.toNat } := by
  have hentry : tableRead s.t i = genEntry i.toNat := ht i.toFin
  rw [exec_tblRd hf htv, hentry]

/-- TBL_RD without a valid table takes E_TABLE (R105). -/
theorem faultsWith_tblRd_table {s : State} (hf : s.fault = false) (htv : s.tv = false) (i : Byte) :
    FaultsWith (.tblRd 0#24 (i.setWidth 32)) 4#4 s :=
  faultsWith_table rfl hf (operandLegal_byte_setWidth i) (.inl rfl) rfl htv

/-- Settles O17: the checks and the read, and entries 0 and 1 as values of gen_entry. -/
theorem tblRdReadsOneEntry : Obligations.TblRdReadsOneEntry := by
  obtain ⟨-, hentry0, hentry1, -⟩ := tableFunctionIsEightIterations
  refine ⟨fun i => ?_, fun rsv imm s hf hbad => ?_, fun i s hf htv => faultsWith_tblRd_table hf htv i,
    fun i s hf htv => exec_tblRd hf htv i, fun s hf htv ht => ⟨?_, ?_⟩, faultsWith_tblRd_table rfl rfl 1#8⟩
  · rw [append_byte_eq_commandWord, decode_commandWord]
    rfl
  · exact faultsWith_operand rfl hf (operandLegal_byte_eq_false hbad)
  · rw [← hentry0]
    exact exec_tblRd_of_valid hf htv ht 0#8
  · rw [← hentry1]
    exact exec_tblRd_of_valid hf htv ht 1#8

/-! #### Every run of a host program ends (R241) -/

/-- A command's effect leaves the port ready, or is TBL_GEN's (R235). -/
theorem effect_busy {i : Instr} {s : State} (hbusy : s.busy = false) :
    (effect i s).busy = false ∨ effect i s = startGen s := by
  cases i with
  | tblGen => exact .inr rfl
  | srst => exact .inl rfl
  | regRd => rw [effect, readRegister_frame]; exact .inl hbusy
  | sig => rw [effect, emit_eq]; exact .inl hbusy
  | chLen | chType | chData | chDataw | chEnd | chIhdr | chIend =>
    simp only [effect, openChunk_eq, putType_eq, putByte_eq, putWord_eq, closeChunk_eq, emitChunk_eq]
    exact .inl hbusy
  | _ => exact .inl hbusy

/-- A step from a ready port leaves the port ready or starts a generation (R235). -/
theorem step_busy_cases {s s' : State} (hbusy : s.busy = false) (hstep : step s = .next s') :
    s'.busy = false ∨ ∃ u, s' = startGen u := by
  cases stepOutcome_of_step hstep with
  | reset acts => exact .inl rfl
  | generate acts hb => cases hbusy.symm.trans hb
  | hold acts | fault acts => exact .inl hbusy
  | perform acts i =>
    exact (effect_busy (s := { s with hostActs := acts }) hbusy).imp_right fun h => ⟨_, h⟩

/-- Within 2049 steps the first word of a program is accepted and the port ready again, with the other words left
(R103, R235). -/
theorem runSteps_first_word (w : CmdWord) (ws : List CmdWord) {s : State} (hbusy : s.busy = false) :
    ∃ k s', k ≤ 2049 ∧ runSteps k (loadProgram (w :: ws) s) = .next s' ∧ s'.busy = false ∧
      s' = loadProgram ws s' := by
  obtain ⟨t, hexec, hacts⟩ := execute_hostActs w (loadProgram ws s)
  have hload : (loadProgram (w :: ws) s).busy = false := hbusy
  have hstep : step (loadProgram (w :: ws) s) = .next t := (step_offer_ready hload rfl).trans hexec
  have hleft : ∀ {u : State}, u.hostActs = ws.map .offer → u = loadProgram ws u := fun h => by
    rw [loadProgram, ← h]
  rcases step_busy_cases hload hstep with hready | ⟨u, rfl⟩
  · exact ⟨1, t, by decide, runSteps_succ 0 _ _ hstep, hready, hleft hacts⟩
  · have hu : u.hostActs = ws.map .offer := hacts
    exact ⟨2049, collapsedGen u, le_rfl, (runSteps_succ 2048 _ _ hstep).trans (runSteps_startGen_whole hu),
      collapsedGen_busy u, hleft ((collapsedGen_hostActs u).trans hu)⟩

/-- Settles O57, by induction on the words. -/
theorem everyHostProgramRunEnds : Obligations.EveryHostProgramRunEnds := by
  intro ws
  induction ws with
  | nil => exact fun s hbusy => ⟨0, loadProgram [] s, Nat.zero_le _, rfl, rfl, hbusy⟩
  | cons w ws ih =>
    intro s hbusy
    obtain ⟨k, s₁, hk, hrun, hready, hleft⟩ := runSteps_first_word w ws hbusy
    obtain ⟨k', s₂, hk', hrun', hended⟩ := ih s₁ hready
    rw [← hleft] at hrun'
    refine ⟨k + k', s₂, ?_, (runSteps_add k k' _ _ hrun).trans hrun', hended⟩
    rw [List.length_cons]
    omega

end Sys2Proof.Machine

/-! ### The reduce step and its commands (R120 to R127)

The rules' values are read off the bitwise reduce, which every valid table computes; the commands' theorems then put
checks, effect and values together. -/

namespace Sys2Proof.Machine

/-! #### Values of the reduce over a valid table (R123, R124, R126, R127) -/

/-- Settles O13: one reduce step is eight iterations, and the model's iteration is the rule's. -/
theorem tableReduceEqualsBitwiseReduce : Obligations.TableReduceEqualsBitwiseReduce :=
  fun _ a b ht => (upd_eq_bitsteps ht a b).trans (bitsteps_eq_iterate 8 _)

/-- `genTable` is a valid table (R103). -/
theorem genTable_valid (n : Fin 256) : genTable[n] = genEntry n := genTable_getElem n.val n.isLt

/-- The one-byte values of R123. -/
theorem upd_initAcc_values {t : Table} (ht : ∀ n : Fin 256, t[n] = genEntry n) :
    upd t initAcc 0x49#8 = 0x22FDE946#32 ∧ upd t initAcc 0#8 = 0x2DFD1072#32 ∧
      upd t initAcc 0xFF#8 = 0x00FFFFFF#32 := by
  simp only [upd_eq_bitsteps ht]
  decide

/-- The four-byte values of R124. -/
theorem updStar_initAcc_be32_values {t : Table} (ht : ∀ n : Fin 256, t[n] = genEntry n) :
    updStar t initAcc (be32 0#32) = 0xDEBB20E3#32 ∧ updStar t initAcc (be32 0xFFFFFFFF#32) = 0#32 ∧
      updStar t initAcc (be32 iendType) = 0x51BD9F7D#32 := by
  simp only [updStar_eq_foldl ht]
  decide +kernel

/-- Settles O14: the first value is the accumulator behind it, with the final XOR; the second reduces nothing. -/
theorem checksumReferenceValues : Obligations.ChecksumReferenceValues := by
  obtain ⟨-, -, hiend⟩ := updStar_initAcc_be32_values genTable_valid
  have hbytes : be32 iendType = [0x49#8, 0x45#8, 0x4E#8, 0x44#8] := by decide
  rw [hbytes] at hiend
  refine ⟨?_, by decide, hiend⟩
  rw [checksum, hiend]
  decide

/-! #### CRC_INIT (R122) -/

/-- Settles O18: the checks, none of which reads TV, and the effect. -/
theorem crcInitStartsACrc : Obligations.CrcInitStartsACrc := by
  refine ⟨decode_encode (.crcInit 0#24 0#32), fun rsv imm s hf hbad => ?_, fun s hf hsst => ?_, fun s => exec_crcInit⟩
  · exact faultsWith_operand rfl hf (operandLegal_none_eq_false hbad)
  · exact faultsWith_state rfl hf rfl rfl hsst

/-! #### CRC_BYTE (R123) -/

/-- CRC_BYTE and CRC_FINAL leave the step's value in ACC and its final XOR in RESULT (R123, R125). -/
theorem execAll_crcByte_crcFinal {s : State} (hf : s.fault = false) (hidle : s.sst = .idle) (htv : s.tv = true)
    (b : Byte) :
    execAll [.crcByte 0#24 (b.setWidth 32), .crcFinal 0#24 0#32] s =
      .next { s with acc := upd s.t s.acc b, result := upd s.t s.acc b ^^^ xorOut } :=
  (execAll_cons _ _ _ _ (exec_crcByte hf hidle htv b)).trans (execAll_cons _ _ _ _ (exec_crcFinal hf))

/-- Settles O19: the checks and the effect, and the values by the one-byte reduces. -/
theorem crcByteFoldsOneByte : Obligations.CrcByteFoldsOneByte := by
  refine ⟨fun b => ?_, fun rsv imm s hf hbad => ?_, fun b s hf hsst => ?_, fun b s hf hidle htv => ?_,
    fun b s hf hidle htv => exec_crcByte hf hidle htv b, fun s hf hidle htv ht hacc => ?_⟩
  · rw [append_byte_eq_commandWord, decode_commandWord]
    rfl
  · exact faultsWith_operand rfl hf (operandLegal_byte_eq_false hbad)
  · exact faultsWith_state rfl hf (operandLegal_byte_setWidth b) rfl hsst
  · exact faultsWith_table rfl hf (operandLegal_byte_setWidth b) (.inr (congrArg some hidle.symm)) rfl htv
  · obtain ⟨h49, h00, hFF⟩ := upd_initAcc_values ht
    rw [← show s.acc = initAcc from hacc] at h49 h00 hFF
    refine ⟨?_, ?_, ?_⟩
    · rw [← h49]
      exact exec_crcByte hf hidle htv 0x49#8
    · rw [show 0xD202EF8D#32 = 0x2DFD1072#32 ^^^ xorOut by decide, ← h00]
      exact execAll_crcByte_crcFinal hf hidle htv 0#8
    · rw [show 0xFF000000#32 = 0x00FFFFFF#32 ^^^ xorOut by decide, ← hFF]
      exact execAll_crcByte_crcFinal hf hidle htv 0xFF#8

/-! #### CRC_WORD (R124) -/

/-- Class W refuses any other RSV than 0 (R81, R82). -/
theorem operandLegal_word_eq_false {rsv : Rsv} (h : rsv ≠ 0#24) (imm : Word) : operandLegal .w rsv imm = false := by
  simp [operandLegal, h]

/-- CRC_WORD performed (R124). -/
theorem exec_crcWord {s : State} (hf : s.fault = false) (hidle : s.sst = .idle) (htv : s.tv = true) (v : Word) :
    exec (.crcWord 0#24 v) s = .next { s with acc := updStar s.t s.acc (be32 v) } := by
  unfold exec execCrcWord
  exact runGuarded_perform hf rfl (.inr (congrArg some hidle.symm)) (fun _ => htv) rfl

/-- Settles O20: the checks, the fold over the word's four bytes, which four CRC_BYTE commands fold as well, and the
values by the four-byte reduces. -/
theorem crcWordFoldsFourBytesBigEndian : Obligations.CrcWordFoldsFourBytesBigEndian := by
  refine ⟨fun v => decode_encode (.crcWord 0#24 v), fun rsv v s hf hrsv => ?_, fun v s hf hsst => ?_,
    fun v s hf hidle htv => ?_, fun v s hf hidle htv => ⟨exec_crcWord hf hidle htv v, ?_⟩,
    fun s hf hidle htv ht hacc => ?_⟩
  · exact faultsWith_operand rfl hf (operandLegal_word_eq_false hrsv v)
  · exact faultsWith_state rfl hf rfl rfl hsst
  · exact faultsWith_table rfl hf rfl (.inr (congrArg some hidle.symm)) rfl htv
  · exact (exec_crcWord hf hidle htv v).trans (execAll_crcBytes (be32 v) hf hidle htv).symm
  · obtain ⟨hzero, hones, hiend⟩ := updStar_initAcc_be32_values ht
    rw [← show s.acc = initAcc from hacc] at hzero hones hiend
    refine ⟨?_, ?_, ?_⟩
    · rw [← hzero]
      exact exec_crcWord hf hidle htv 0#32
    · exact (exec_crcWord hf hidle htv _).trans (by rw [hones])
    · rw [← hiend]
      exact exec_crcWord hf hidle htv iendType

/-! #### CRC_FINAL (R125) -/

/-- CRC_INIT, CRC_WORD and CRC_FINAL leave the reduce of the word's bytes in ACC and its final XOR in RESULT (R125). -/
theorem execAll_crcInit_crcWord_crcFinal {s : State} (hf : s.fault = false) (hidle : s.sst = .idle)
    (htv : s.tv = true) (v : Word) :
    execAll [.crcInit 0#24 0#32, .crcWord 0#24 v, .crcFinal 0#24 0#32] s =
      .next { s with acc := updStar s.t initAcc (be32 v), result := updStar s.t initAcc (be32 v) ^^^ xorOut } := by
  rw [execAll_cons _ _ _ _ (exec_crcInit hf hidle),
    execAll_cons _ _ _ _ (exec_crcWord (s := { s with acc := initAcc }) hf hidle htv v)]
  exact execAll_cons _ _ _ _ (exec_crcFinal hf)

/-- Settles O21: the operand check and the effect, which takes INIT to 0 after reset, and the reduce of "IEND". -/
theorem crcFinalDeliversTheCrc : Obligations.CrcFinalDeliversTheCrc := by
  refine ⟨decode_encode (.crcFinal 0#24 0#32), fun rsv imm s hf hbad => ?_, fun s => exec_crcFinal, ?_,
    fun s hf hidle htv ht => ?_⟩
  · exact faultsWith_operand rfl hf (operandLegal_none_eq_false hbad)
  · have hzero : State.reset.acc ^^^ xorOut = 0#32 := by decide
    rw [exec_crcFinal rfl, hzero]
  · obtain ⟨-, -, hiend⟩ := updStar_initAcc_be32_values ht
    rw [show 0xAE426082#32 = 0x51BD9F7D#32 ^^^ xorOut by decide, ← hiend]
    exact execAll_crcInit_crcWord_crcFinal hf hidle htv iendType

end Sys2Proof.Machine

/-! ### Chunk framing (R140 to R149)

A discardable command whose checks pass has its effect, one lemma per command; sequences of them are then read off one
after another. A run that ends without a fault performed every command of it, so the framer's state says at each point
what part of the chunk stands in OUT. -/

namespace Sys2Proof.Machine

/-! #### The checks and effects of the five commands (R142 to R146) -/

/-- With the first three checks passed, the command's further check decides the fault (R202, R203). -/
theorem faultsWith_further {i : Instr} {s : State} {code : FaultCode} (hi : actsInFaultState i = false)
    (hf : s.fault = false) (hlegal : operandLegal i.opClass i.fields.1 i.fields.2 = true)
    (hsst : sstRequired i = none ∨ sstRequired i = some s.sst) (htable : tableRequired i = true → s.tv = true)
    (hfurther : furtherCheck i s = some code) : FaultsWith i code.bits s :=
  faultsWith_of_firstFailure hi hf (by
    rcases hsst with hsst | hsst <;> simp +contextual [firstFailure, needsOf, hlegal, hsst, htable, hfurther])

/-- The further check of CH_DATA and CH_DATAW fails with too few bytes remaining (R202). -/
theorem needsRem_eq_overrun {k : Nat} {s : State} (h : s.rem.toNat < k) : needsRem k s = some .overrun := if_pos h

/-- REM is 0 or counts at least one byte. -/
theorem one_le_rem_iff {s : State} : 1 ≤ s.rem.toNat ↔ s.rem ≠ 0#32 := by
  rw [Nat.one_le_iff_ne_zero, ne_eq, ne_eq, ← BitVec.toNat_inj]
  rfl

/-- CH_LEN performed (R142). -/
theorem exec_chLen {s : State} (hf : s.fault = false) (hidle : s.sst = .idle) (htv : s.tv = true) (n : Word) :
    exec (.chLen 0#24 n) s = .next (openChunk n s) :=
  runGuarded_perform hf rfl (.inr (congrArg some hidle.symm)) (fun _ => htv) rfl

/-- CH_TYPE performed (R143). -/
theorem exec_chType {s : State} (hf : s.fault = false) (htype : s.sst = .type) (htv : s.tv = true) (t : Word) :
    exec (.chType 0#24 t) s = .next (putType t s) :=
  runGuarded_perform hf rfl (.inr (congrArg some htype.symm)) (fun _ => htv) rfl

/-- CH_DATA performed (R144). -/
theorem exec_chData {s : State} (hf : s.fault = false) (hdata : s.sst = .data) (hrem : 1 ≤ s.rem.toNat) (b : Byte) :
    exec (.chData 0#24 (b.setWidth 32)) s = .next (putByte b s) := by
  unfold exec execChData
  simp only [byteOperand_zeroExtend]
  exact runGuarded_perform hf (operandLegal_byte_setWidth b) (.inr (congrArg some hdata.symm)) nofun
    (needsRem_eq_none.mpr hrem)

/-- CH_DATA with no byte remaining takes E_OVERRUN (R144). -/
theorem faultsWith_chData_overrun {s : State} (hf : s.fault = false) (hdata : s.sst = .data) (hrem : s.rem = 0#32)
    (b : Byte) : FaultsWith (.chData 0#24 (b.setWidth 32)) 5#4 s :=
  faultsWith_further (code := .overrun) rfl hf (operandLegal_byte_setWidth b) (.inr (congrArg some hdata.symm)) nofun
    (needsRem_eq_overrun (by simp [hrem]))

/-- CH_DATAW performed (R145). -/
theorem exec_chDataw {s : State} (hf : s.fault = false) (hdata : s.sst = .data) (hrem : 4 ≤ s.rem.toNat) (v : Word) :
    exec (.chDataw 0#24 v) s = .next (putWord v s) :=
  runGuarded_perform hf rfl (.inr (congrArg some hdata.symm)) nofun (needsRem_eq_none.mpr hrem)

/-- CH_END performed (R146). -/
theorem exec_chEnd {s : State} (hf : s.fault = false) (hdata : s.sst = .data) (hrem : s.rem = 0#32) :
    exec (.chEnd 0#24 0#32) s = .next (closeChunk s) :=
  runGuarded_perform hf rfl (.inr (congrArg some hdata.symm)) nofun (needsRemZero_eq_none.mpr hrem)

/-- CH_LEN and CH_TYPE, as one update (R142, R143). -/
theorem putType_openChunk_eq (n t : Word) (s : State) : putType t (openChunk n s) =
    { s with
      out := s.out ++ be32 n ++ be32 t, outCnt := s.outCnt + 4#32 + 4#32, len := n, rem := n, chunkType := t
      acc := updStar s.t initAcc (be32 t), sst := .data } := by
  rw [putType_eq, openChunk_eq]

@[simp] theorem putType_openChunk_fault (n t : Word) (s : State) : (putType t (openChunk n s)).fault = s.fault := by
  rw [putType_openChunk_eq]

@[simp] theorem putType_openChunk_sst (n t : Word) (s : State) : (putType t (openChunk n s)).sst = .data := by
  rw [putType_openChunk_eq]

@[simp] theorem putType_openChunk_rem (n t : Word) (s : State) : (putType t (openChunk n s)).rem = n := by
  rw [putType_openChunk_eq]

/-- A chunk opened and its type put, before the commands that follow (R142, R143). -/
theorem execAll_chLen_chType {s : State} (hf : s.fault = false) (hidle : s.sst = .idle) (htv : s.tv = true)
    (n t : Word) (is : List Instr) :
    execAll (.chLen 0#24 n :: .chType 0#24 t :: is) s = execAll is (putType t (openChunk n s)) := by
  rw [execAll_cons _ _ _ _ (exec_chLen hf hidle htv n)]
  refine execAll_cons _ _ _ _ (exec_chType ?_ ?_ ?_ t) <;> simp [openChunk_eq, hf, htv]

/-- The reduce of "IDAT" (R143). -/
theorem updStar_initAcc_idat {t : Table} (ht : ∀ n : Fin 256, t[n] = genEntry n) :
    updStar t initAcc (be32 0x49444154#32) = 0xCA50F9E1#32 := by
  rw [updStar_eq_foldl ht]
  decide +kernel

/-! #### CH_LEN (R142, R149) -/

/-- Settles O22: the checks, and the effect for every length. -/
theorem chLenOpensAChunk : Obligations.ChLenOpensAChunk := by
  refine ⟨fun n => decode_encode (.chLen 0#24 n), fun rsv n s hf hrsv => ?_, fun n s hf hsst => ?_,
    fun n s hf hidle htv => ?_, fun n s hf hidle htv => ?_⟩
  · exact faultsWith_operand rfl hf (operandLegal_word_eq_false hrsv n)
  · exact faultsWith_state rfl hf rfl rfl hsst
  · exact faultsWith_table rfl hf rfl (.inr (congrArg some hidle.symm)) rfl htv
  · rw [exec_chLen hf hidle htv, openChunk_eq]
    rfl

/-! #### CH_TYPE (R143, R148) -/

/-- Settles O23: the checks, of which R46.3 rules out the last, the effect, and the reduce of "IDAT". -/
theorem chTypeEmitsTheTypeAndRestartsTheCrc : Obligations.ChTypeEmitsTheTypeAndRestartsTheCrc := by
  refine ⟨fun t => decode_encode (.chType 0#24 t), fun rsv t s hf hrsv => ?_, fun t s hf hsst => ?_,
    fun t s hf htype htv => ?_, fun s hinv htype => ?_, fun t s hf htype htv => ?_, fun s hf htype htv ht => ?_⟩
  · exact faultsWith_operand rfl hf (operandLegal_word_eq_false hrsv t)
  · exact faultsWith_state rfl hf rfl rfl hsst
  · exact faultsWith_table rfl hf rfl (.inr (congrArg some htype.symm)) rfl htv
  · exact hinv.openHasTable (htype ▸ nofun)
  · rw [exec_chType hf htype htv, putType_eq]
    rfl
  · rw [exec_chType hf htype htv, putType_eq, updStar_initAcc_idat ht]
    rfl

/-! #### CH_DATA (R144) -/

/-- One CH_DATA for each byte of a sequence. -/
def chDatas (d : List Byte) : List Instr := d.map fun b => .chData 0#24 (b.setWidth 32)

/-- REM less `k` bytes, as a number, with at least `k` remaining. -/
theorem rem_sub_toNat {s : State} {k : Nat} (hk : k ≤ s.rem.toNat) :
    (s.rem - BitVec.ofNat 32 k).toNat = s.rem.toNat - k := by
  have hlt := s.rem.isLt
  have hnat : (BitVec.ofNat 32 k).toNat = k := by rw [BitVec.toNat_ofNat]; omega
  rw [BitVec.toNat_sub_of_le (by rw [BitVec.le_def, hnat]; exact hk), hnat]

/-- REM after one byte put, as a number (R144). -/
theorem putByte_rem_toNat {s : State} (hrem : 1 ≤ s.rem.toNat) (b : Byte) :
    (putByte b s).rem.toNat = s.rem.toNat - 1 := by
  rw [putByte_eq]
  exact rem_sub_toNat hrem

/-- One CH_DATA per byte, with room for all of them, puts the whole sequence (R144). -/
theorem execAll_chDatas (d : List Byte) {s : State} (hf : s.fault = false) (hdata : s.sst = .data)
    (hrem : d.length ≤ s.rem.toNat) :
    execAll (chDatas d) s = .next
      { s with
        out := s.out ++ d, outCnt := s.outCnt + BitVec.ofNat 32 d.length, acc := updStar s.t s.acc d
        rem := s.rem - BitVec.ofNat 32 d.length } := by
  induction d generalizing s with
  | nil => simp [chDatas, execAll, updStar]
  | cons b d ih =>
    rw [List.length_cons] at hrem
    have hone : 1 ≤ s.rem.toNat := by omega
    have hroom : d.length ≤ (putByte b s).rem.toNat := by rw [putByte_rem_toNat hone]; omega
    have hf' : (putByte b s).fault = false := by rw [putByte_eq]; exact hf
    have hdata' : (putByte b s).sst = .data := by rw [putByte_eq]; exact hdata
    refine (execAll_cons _ _ _ _ (exec_chData hf hdata hone b)).trans ((ih hf' hdata' hroom).trans ?_)
    have hlen : BitVec.ofNat 32 (b :: d).length = 1#32 + BitVec.ofNat 32 d.length := by
      rw [List.length_cons, Nat.add_comm, BitVec.ofNat_add]
    simp only [putByte_eq, hlen, updStar, List.append_assoc, List.singleton_append, BitVec.add_assoc, sub_sub]

/-- Commands that the fault state discards leave it as it is (R206). -/
theorem execAll_discarded {is : List Instr} (his : ∀ i ∈ is, actsInFaultState i = false) {s : State}
    (hf : s.fault = true) : execAll is s = .next s := by
  induction is with
  | nil => rfl
  | cons i is ih =>
    obtain ⟨hi, his⟩ := List.forall_mem_cons.mp his
    exact (execAll_cons _ _ _ _ (exec_discarded hi hf)).trans (ih his)

/-- One CH_DATA per byte, with more bytes than REM counts, puts REM of them and ends in E_OVERRUN (R144). -/
theorem execAll_chDatas_overrun (d : List Byte) {s : State} (hf : s.fault = false) (hdata : s.sst = .data)
    (hrem : s.rem.toNat < d.length) :
    ∃ s', execAll (chDatas d) s = .next s' ∧ s'.out = s.out ++ d.take s.rem.toNat ∧ s'.err = 5#4 := by
  induction d generalizing s with
  | nil => exact absurd hrem (Nat.not_lt_zero _)
  | cons b d ih =>
    by_cases hzero : s.rem = 0#32
    · refine ⟨_, (execAll_cons _ _ _ _ (faultsWith_chData_overrun hf hdata hzero b)).trans
        (execAll_discarded (by simp [actsInFaultState]) rfl), by simp [hzero], rfl⟩
    · have hone := one_le_rem_iff.mpr hzero
      have hrem' := putByte_rem_toNat hone b
      have hf' : (putByte b s).fault = false := by rw [putByte_eq]; exact hf
      have hdata' : (putByte b s).sst = .data := by rw [putByte_eq]; exact hdata
      rw [List.length_cons] at hrem
      obtain ⟨s', hrun, hout, herr⟩ := ih hf' hdata' (by omega)
      refine ⟨s', (execAll_cons _ _ _ _ (exec_chData hf hdata hone b)).trans hrun, ?_, herr⟩
      obtain ⟨k, hk⟩ := Nat.exists_eq_add_of_le' hone
      rw [hout, hrem', hk]
      simp [putByte_eq]

/-- Settles O24: the checks and the effect, and the example's three commands one after another. -/
theorem chDataEmitsOneByte : Obligations.ChDataEmitsOneByte := by
  refine ⟨fun b => ?_, fun rsv imm s hf hbad => ?_, fun b s hf hsst => ?_, fun b s hf hdata hrem => ?_,
    fun b s hf hdata hrem => ?_, fun s hf hidle htv ht => ?_⟩
  · rw [append_byte_eq_commandWord, decode_commandWord]
    rfl
  · exact faultsWith_operand rfl hf (operandLegal_byte_eq_false hbad)
  · exact faultsWith_state rfl hf (operandLegal_byte_setWidth b) rfl hsst
  · exact faultsWith_chData_overrun hf hdata hrem b
  · rw [exec_chData hf hdata (one_le_rem_iff.mpr hrem), putByte_eq]
  · rw [execAll_chLen_chType hf hidle htv, ← updStar_initAcc_idat ht]
    have hput := exec_chData (s := putType 0x49444154#32 (openChunk 1#32 s)) (by simp [hf]) (by simp) (by simp) 0xAB#8
    refine ⟨_, execAll_cons _ _ _ _ hput, ?_⟩
    simp [putByte_eq, putType_openChunk_eq, be32, hf]

/-! #### CH_DATAW (R145) -/

/-- The four CH_DATA commands of a word's bytes. -/
theorem chDatas_be32 (v : Word) : chDatas (be32 v) =
    [.chData 0#24 ((v.extractLsb' 24 8).setWidth 32), .chData 0#24 ((v.extractLsb' 16 8).setWidth 32),
      .chData 0#24 ((v.extractLsb' 8 8).setWidth 32), .chData 0#24 ((v.extractLsb' 0 8).setWidth 32)] := rfl

/-- With four bytes remaining, one CH_DATAW is four CH_DATA (R145). -/
theorem exec_chDataw_eq_chDatas {s : State} (hf : s.fault = false) (hdata : s.sst = .data) (hrem : 4 ≤ s.rem.toNat)
    (v : Word) : exec (.chDataw 0#24 v) s = execAll (chDatas (be32 v)) s := by
  rw [exec_chDataw hf hdata hrem, putWord_eq]
  exact (execAll_chDatas (be32 v) hf hdata hrem).symm

/-- Settles O25: the checks and the effect; the four CH_DATA by their sequence, with room and without; and the example's
three commands one after another. -/
theorem chDatawEmitsFourBytes : Obligations.ChDatawEmitsFourBytes := by
  refine ⟨fun v => decode_encode (.chDataw 0#24 v), fun rsv v s hf hrsv => ?_, fun v s hf hsst => ?_,
    fun v s hf hdata hrem => ?_, fun v s hf hdata hrem => ⟨?_, ?_⟩, fun v s hf hdata hpos hrem => ?_,
    fun s hf hidle htv => ?_⟩
  · exact faultsWith_operand rfl hf (operandLegal_word_eq_false hrsv v)
  · exact faultsWith_state rfl hf rfl rfl hsst
  · exact faultsWith_further (code := .overrun) rfl hf rfl (.inr (congrArg some hdata.symm)) nofun
      (needsRem_eq_overrun hrem)
  · rw [exec_chDataw hf hdata hrem, putWord_eq]
    rfl
  · rw [exec_chDataw_eq_chDatas hf hdata hrem, chDatas_be32]
  · obtain ⟨s', hrun, hout, herr⟩ := execAll_chDatas_overrun (be32 v) hf hdata (Nat.lt_succ_of_le hrem)
    refine ⟨s', hrun, ?_, herr⟩
    rw [hout, List.length_append, List.length_take, be32_length, Nat.min_eq_left (by omega)]
  · rw [execAll_chLen_chType hf hidle htv]
    have hput := exec_chDataw (s := putType 0x49444154#32 (openChunk 4#32 s)) (by simp [hf]) (by simp) (by simp) 2#32
    refine ⟨_, execAll_cons _ _ _ _ hput, ?_⟩
    simp [putWord_eq, putType_openChunk_eq, be32, hf]

/-! #### CH_END (R146) -/

/-- The empty chunk: CH_LEN 0, CH_TYPE and CH_END one after another (R146). -/
theorem execAll_emptyChunk {s : State} (hf : s.fault = false) (hidle : s.sst = .idle) (htv : s.tv = true) (t : Word) :
    execAll [.chLen 0#24 0#32, .chType 0#24 t, .chEnd 0#24 0#32] s = .next
      { s with
        out := s.out ++ be32 0#32 ++ be32 t ++ be32 (updStar s.t initAcc (be32 t) ^^^ xorOut)
        outCnt := s.outCnt + 4#32 + 4#32 + 4#32, len := 0#32, rem := 0#32, chunkType := t
        acc := updStar s.t initAcc (be32 t), result := updStar s.t initAcc (be32 t) ^^^ xorOut, sst := .idle } := by
  rw [execAll_chLen_chType hf hidle htv]
  have hend := exec_chEnd (s := putType t (openChunk 0#32 s)) (by simp [hf]) (by simp) (by simp)
  rw [execAll_cons _ _ _ _ hend, closeChunk_eq, putType_openChunk_eq]
  rfl

/-- Settles O26: the checks and the effect; the empty chunk's CRC is the checksum of its type, of "IEND" too. -/
theorem chEndClosesTheChunk : Obligations.ChEndClosesTheChunk := by
  refine ⟨decode_encode (.chEnd 0#24 0#32), fun rsv imm s hf hbad => ?_, fun s hf hsst => ?_, fun s hf hdata hrem => ?_,
    fun s c hf hdata hrem hc => ?_, fun t s hf hidle htv ht => ?_, fun s hf hidle htv ht => ?_⟩
  · exact faultsWith_operand rfl hf (operandLegal_none_eq_false hbad)
  · exact faultsWith_state rfl hf rfl rfl hsst
  · exact faultsWith_further (code := .underrun) rfl hf rfl (.inr (congrArg some hdata.symm)) nofun (if_neg hrem)
  · rw [exec_chEnd hf hdata hrem, closeChunk_eq, hc]
    rfl
  · rw [checksum, ← eq_genTable ht]
    exact ⟨_, execAll_emptyChunk hf hidle htv t, hf, rfl, rfl, rfl⟩
  · obtain ⟨-, -, hiend⟩ := updStar_initAcc_be32_values ht
    have hcrc : updStar s.t initAcc (be32 iendType) ^^^ xorOut = 0xAE426082#32 := by rw [hiend]; decide
    refine ⟨_, execAll_emptyChunk hf hidle htv iendType, ?_, hcrc, hiend⟩
    rw [hcrc, List.append_assoc, List.append_assoc]
    exact congrArg (s.out ++ ·) (by decide)

/-! #### Every completed chunk (R147) -/

/-- Every command of the list passes its checks in its turn and is performed, from `s` to `s'`. -/
inductive Performed : List Instr → State → State → Prop where
  | nil (s : State) : Performed [] s s
  | cons {i : Instr} {is : List Instr} {s s' : State} (hpass : Passes i s) (hrest : Performed is (effect i s) s') :
      Performed (i :: is) s s'

/-- A command that leaves FAULT = 0 was performed: one discarded or faulting leaves FAULT = 1 (R204, R206). -/
theorem passes_of_exec {i : Instr} {s s' : State} (h : exec i s = .next s') (hf' : s'.fault = false) :
    Passes i s ∧ s' = effect i s := by
  rcases exec_cases i s with ⟨hf, hs⟩ | ⟨code, -, hs⟩ | ⟨hpass, -, hs⟩
  · cases h.symm.trans hs
    cases hf.symm.trans hf'
  · cases h.symm.trans hs
    cases hf'
  · cases h.symm.trans hs
    exact ⟨hpass, rfl⟩

/-- A sequence that goes through is its first command and then the rest. -/
theorem execAll_cons_next {i : Instr} {is : List Instr} {s s' : State} (h : execAll (i :: is) s = .next s') :
    ∃ u, exec i s = .next u ∧ execAll is u = .next s' := by
  unfold execAll at h
  split at h
  next u hu => exact ⟨u, hu, h⟩
  all_goals cases h

/-- A sequence without SRST that ends with FAULT = 0 began so and performed every command: only a reset leaves the fault
state (R207). -/
theorem performed_of_execAll {is : List Instr} (hsrst : ∀ i ∈ is, ∀ rsv imm, i ≠ .srst rsv imm) {s s' : State}
    (h : execAll is s = .next s') (hf' : s'.fault = false) : s.fault = false ∧ Performed is s s' := by
  induction is generalizing s with
  | nil =>
    cases h
    exact ⟨hf', .nil _⟩
  | cons i is ih =>
    obtain ⟨hi, his⟩ := List.forall_mem_cons.mp hsrst
    obtain ⟨u, hu, hrest⟩ := execAll_cons_next h
    obtain ⟨hfu, hperformed⟩ := ih his hrest
    obtain ⟨hpass, rfl⟩ := passes_of_exec hu hfu
    exact ⟨(effect_fault hi s).symm.trans hfu, .cons hpass hperformed⟩

/-- Two lists performed one after another. -/
theorem Performed.of_append {is js : List Instr} {s s' : State} (h : Performed (is ++ js) s s') :
    ∃ u, Performed is s u ∧ Performed js u s' := by
  induction is generalizing s with
  | nil => exact ⟨s, .nil s, h⟩
  | cons i is ih =>
    cases h with
    | cons hpass hrest =>
      obtain ⟨u, his, hjs⟩ := ih hrest
      exact ⟨u, .cons hpass his, hjs⟩

/-- One command performed. -/
theorem Performed.singleton {i : Instr} {s s' : State} (h : Performed [i] s s') : Passes i s ∧ s' = effect i s := by
  cases h with
  | cons hpass hrest =>
    cases hrest
    exact ⟨hpass, rfl⟩

/-- A command other than SRST that runs with any SST emits no byte and leaves T, ACC, SST and REM alone (R141). -/
theorem effect_of_any_sst {i : Instr} (hsrst : ∀ rsv imm, i ≠ .srst rsv imm) (hany : sstRequired i = none)
    (s : State) :
    effect i s = { effect i s with t := s.t, acc := s.acc, sst := s.sst, rem := s.rem, out := s.out } := by
  cases i with
  | srst rsv imm => exact absurd rfl (hsrst rsv imm)
  | regRd => rw [effect, readRegister_frame]
  | nop | tblRd | crcFinal | setW | setH | setCt => rfl
  | _ => cases hany

/-- Such a command puts no data byte. -/
theorem dataBytes_of_any_sst {i : Instr} (hany : sstRequired i = none) : dataBytes i = [] := by
  cases i with
  | chData | chDataw => cases hany
  | _ => rfl

/-- A command that neither completes the open chunk nor gives it up: any but CH_END and SRST (R147). -/
def NeitherEndNorReset (i : Instr) : Prop := (∀ rsv imm, i ≠ .chEnd rsv imm) ∧ ∀ rsv imm, i ≠ .srst rsv imm

/-- Behind CH_LEN `n` of a chunk that follows `out₀`: its length stands in OUT, its type is expected, the table is
valid. -/
structure LengthEmitted (out₀ : List Byte) (n : Word) (s : State) : Prop where
  table : s.t = genTable
  sst : s.sst = .type
  rem : s.rem = n
  out : s.out = out₀ ++ be32 n

/-- Behind CH_TYPE `ty` of a chunk of length `n` that follows `out₀`: length, type and the data bytes `d` so far stand
in OUT, ACC is the reduce of type and data, REM counts the bytes that are missing, the table is valid. -/
structure DataEmitted (out₀ : List Byte) (n ty : Word) (d : List Byte) (s : State) : Prop where
  table : s.t = genTable
  sst : s.sst = .data
  rem : s.rem.toNat + d.length = n.toNat
  acc : s.acc = updStar genTable initAcc (be32 ty ++ d)
  out : s.out = out₀ ++ be32 n ++ be32 ty ++ d

/-- CH_LEN performed leaves the length in OUT, over a valid table (R142). -/
theorem lengthEmitted_of_chLen {s : State} {n : Word} (hinv : StateInv s) (hpass : Passes (.chLen 0#24 n) s) :
    LengthEmitted s.out n (effect (.chLen 0#24 n) s) := by
  have ht := eq_genTable (hinv.tableValid (hpass.tv_eq rfl))
  rw [effect, openChunk_eq]
  exact ⟨ht, rfl, rfl, rfl⟩

/-- Where the type is expected, a command runs with any SST or is CH_TYPE (R141). -/
theorem Passes.any_sst_or_chType {i : Instr} {s : State} (hpass : Passes i s) (htype : s.sst = .type) :
    sstRequired i = none ∨ ∃ rsv imm, i = .chType rsv imm := by
  cases i with
  | nop | srst | regRd | tblRd | crcFinal | setW | setH | setCt => exact .inl rfl
  | chType rsv imm => exact .inr ⟨rsv, imm, rfl⟩
  | _ => cases htype.symm.trans (hpass.sst_eq rfl)

/-- Where data is expected, a command runs with any SST or is CH_DATA, CH_DATAW or CH_END (R141). -/
theorem Passes.any_sst_or_data {i : Instr} {s : State} (hpass : Passes i s) (hdata : s.sst = .data) :
    sstRequired i = none ∨ (∃ rsv imm, i = .chData rsv imm) ∨ (∃ rsv imm, i = .chDataw rsv imm) ∨
      ∃ rsv imm, i = .chEnd rsv imm := by
  cases i with
  | nop | srst | regRd | tblRd | crcFinal | setW | setH | setCt => exact .inl rfl
  | chData rsv imm => exact .inr (.inl ⟨rsv, imm, rfl⟩)
  | chDataw rsv imm => exact .inr (.inr (.inl ⟨rsv, imm, rfl⟩))
  | chEnd rsv imm => exact .inr (.inr (.inr ⟨rsv, imm, rfl⟩))
  | _ => cases hdata.symm.trans (hpass.sst_eq rfl)

/-- A command between CH_LEN and CH_TYPE leaves the chunk as it is, or is a CH_TYPE itself (R141). -/
theorem LengthEmitted.after_effect {out₀ : List Byte} {n : Word} {i : Instr} {s : State}
    (h : LengthEmitted out₀ n s) (hi : NeitherEndNorReset i) (hpass : Passes i s) :
    LengthEmitted out₀ n (effect i s) ∨ (effect i s).sst = .data := by
  obtain ⟨-, hsrst⟩ := hi
  rcases hpass.any_sst_or_chType h.sst with hany | ⟨rsv, imm, rfl⟩
  · rw [effect_of_any_sst hsrst hany]
    exact .inl ⟨h.table, h.sst, h.rem, h.out⟩
  · exact .inr (by rw [effect, putType_eq])

/-- Only CH_END and a reset leave the state in which data is expected (R141). -/
theorem effect_sst_of_data {i : Instr} {s : State} (hi : NeitherEndNorReset i) (hpass : Passes i s)
    (hdata : s.sst = .data) : (effect i s).sst = .data := by
  obtain ⟨hend, hsrst⟩ := hi
  rcases hpass.any_sst_or_data hdata with hany | ⟨rsv, imm, rfl⟩ | ⟨rsv, imm, rfl⟩ | ⟨rsv, imm, rfl⟩
  · rw [effect_of_any_sst hsrst hany]
    exact hdata
  · rw [effect, putByte_eq]
    exact hdata
  · rw [effect, putWord_eq]
    exact hdata
  · exact absurd rfl (hend rsv imm)

/-- Commands between CH_LEN and CH_TYPE leave the chunk as it is, unless a CH_TYPE among them came first (R141). -/
theorem Performed.lengthEmitted {out₀ : List Byte} {n : Word} {is : List Instr} {s s' : State}
    (h : Performed is s s') (his : ∀ i ∈ is, NeitherEndNorReset i)
    (hopen : LengthEmitted out₀ n s ∨ s.sst = .data) : LengthEmitted out₀ n s' ∨ s'.sst = .data := by
  induction h with
  | nil => exact hopen
  | cons hpass hrest ih =>
    obtain ⟨hi, his⟩ := List.forall_mem_cons.mp his
    refine ih his ?_
    rcases hopen with hlen | hdata
    · exact hlen.after_effect hi hpass
    · exact .inr (effect_sst_of_data hi hpass hdata)

/-- CH_TYPE performed opens the data of the chunk (R143). -/
theorem LengthEmitted.dataEmitted {out₀ : List Byte} {n ty : Word} {s : State} (h : LengthEmitted out₀ n s) :
    DataEmitted out₀ n ty [] (effect (.chType 0#24 ty) s) := by
  rw [effect, putType_eq]
  exact ⟨h.table, rfl, by simp [h.rem], by simp [h.table], by simp [h.out]⟩

/-- Bytes put into an open chunk with room for them, folded into ACC and counted off REM, are data of it (R144,
R145). -/
theorem DataEmitted.append {out₀ d bs : List Byte} {n ty : Word} {s s' : State} (h : DataEmitted out₀ n ty d s)
    (hroom : bs.length ≤ s.rem.toNat)
    (hframe : s' = { s' with
      t := s.t, sst := s.sst, acc := updStar s.t s.acc bs, rem := s.rem - BitVec.ofNat 32 bs.length
      out := s.out ++ bs }) : DataEmitted out₀ n ty (d ++ bs) s' := by
  have hcount := h.rem
  rw [hframe]
  refine ⟨h.table, h.sst, ?_, ?_, ?_⟩
  · rw [rem_sub_toNat hroom, List.length_append]
    omega
  · rw [h.table, h.acc, ← updStar_append, List.append_assoc]
  · rw [h.out, List.append_assoc]

/-- A command of an open chunk, other than CH_END, puts its data bytes (R144, R145). -/
theorem DataEmitted.after_effect {out₀ d : List Byte} {n ty : Word} {i : Instr} {s : State}
    (h : DataEmitted out₀ n ty d s) (hi : NeitherEndNorReset i) (hpass : Passes i s) :
    DataEmitted out₀ n ty (d ++ dataBytes i) (effect i s) := by
  obtain ⟨hend, hsrst⟩ := hi
  rcases hpass.any_sst_or_data h.sst with hany | ⟨rsv, imm, rfl⟩ | ⟨rsv, imm, rfl⟩ | ⟨rsv, imm, rfl⟩
  · rw [effect_of_any_sst hsrst hany, dataBytes_of_any_sst hany, List.append_nil]
    exact ⟨h.table, h.sst, h.rem, h.acc, h.out⟩
  · exact h.append (needsRem_eq_none.mp hpass.furtherCheck_eq) (by rw [effect, putByte_eq]; rfl)
  · exact h.append (needsRem_eq_none.mp hpass.furtherCheck_eq) (by rw [effect, putWord_eq]; rfl)
  · exact absurd rfl (hend rsv imm)

/-- The commands of an open chunk put their data bytes one after another (R144, R145). -/
theorem Performed.dataEmitted {out₀ d : List Byte} {n ty : Word} {is : List Instr} {s s' : State}
    (h : Performed is s s') (his : ∀ i ∈ is, NeitherEndNorReset i)
    (hdata : DataEmitted out₀ n ty d s) : DataEmitted out₀ n ty (d ++ is.flatMap dataBytes) s' := by
  induction h generalizing d with
  | nil => simpa using hdata
  | cons hpass hrest ih =>
    obtain ⟨hi, his⟩ := List.forall_mem_cons.mp his
    rw [List.flatMap_cons, ← List.append_assoc]
    exact ih his (hdata.after_effect hi hpass)

/-- CH_END performed completes the chunk: no data byte is missing, and the CRC of type and data follows (R146). -/
theorem DataEmitted.chunk_of_chEnd {out₀ d : List Byte} {n ty : Word} {s : State} (h : DataEmitted out₀ n ty d s)
    (hpass : Passes (.chEnd 0#24 0#32) s) :
    (effect (.chEnd 0#24 0#32) s).out = out₀ ++ be32 n ++ be32 ty ++ d ++ be32 (checksum (be32 ty ++ d)) ∧
      d.length = n.toNat := by
  have hrem : s.rem = 0#32 := needsRemZero_eq_none.mp hpass.furtherCheck_eq
  refine ⟨?_, ?_⟩
  · rw [effect, closeChunk_eq, checksum, ← h.acc, ← h.out]
  · simpa [hrem] using h.rem

/-- From CH_LEN to CH_END, every command performed, the chunk is whole (R147). -/
theorem chunk_of_performed {s s' : State} {n ty : Word} {before during : List Instr} (hinv : StateInv s)
    (hothers : ∀ i ∈ before ++ during, NeitherEndNorReset i)
    (h : Performed ([.chLen 0#24 n] ++ before ++ [.chType 0#24 ty] ++ during ++ [.chEnd 0#24 0#32]) s s') :
    s'.out = s.out ++ be32 n ++ be32 ty ++ during.flatMap dataBytes
      ++ be32 (checksum (be32 ty ++ during.flatMap dataBytes)) ∧
    (during.flatMap dataBytes).length = n.toNat := by
  obtain ⟨hbefore, hduring⟩ := List.forall_mem_append.mp hothers
  obtain ⟨s₄, h, hend⟩ := h.of_append
  obtain ⟨s₃, h, hdata⟩ := h.of_append
  obtain ⟨s₂, h, htype⟩ := h.of_append
  obtain ⟨s₁, hlen, hwait⟩ := h.of_append
  obtain ⟨hpassLen, rfl⟩ := hlen.singleton
  obtain ⟨hpassType, rfl⟩ := htype.singleton
  obtain ⟨hpassEnd, rfl⟩ := hend.singleton
  have hnotData : s₂.sst ≠ .data := hpassType.sst_eq rfl ▸ nofun
  have hlength := (hwait.lengthEmitted hbefore (.inl (lengthEmitted_of_chLen hinv hpassLen))).resolve_right hnotData
  exact (hdata.dataEmitted hduring hlength.dataEmitted).chunk_of_chEnd hpassEnd

/-- CH_IHDR's and CH_IEND's chunk over a valid table (R147, R175, R176). -/
theorem emitChunk_out {s : State} (ht : s.t = genTable) (n ty : Word) (d : List Byte) :
    (emitChunk n ty d s).out = s.out ++ be32 n ++ be32 ty ++ d ++ be32 (checksum (be32 ty ++ d)) := by
  rw [emitChunk_eq, checksum, ← ht]
  simp [chunkBytes]

/-- Settles O27: a run without fault performed every command, and so put a whole chunk; CH_IHDR and CH_IEND put one at
once. -/
theorem everyCompletedChunkIsWellFormed : Obligations.EveryCompletedChunkIsWellFormed := by
  refine ⟨fun s s' n t before during hinv _ hothers hrun hf' => ?_, fun s s' hinv _ hexec hf' => ?_,
    fun s s' hinv _ hexec hf' => ?_⟩
  · have hsrst : ∀ i ∈ [.chLen 0#24 n] ++ before ++ [.chType 0#24 t] ++ during ++ [.chEnd 0#24 0#32],
        ∀ rsv imm, i ≠ Instr.srst rsv imm := by
      have hothers' : ∀ i ∈ before ++ during, ∀ rsv imm, i ≠ .srst rsv imm := fun i hi => (hothers i hi).right
      obtain ⟨hbefore, hduring⟩ := List.forall_mem_append.mp hothers'
      simp only [List.forall_mem_append, List.forall_mem_singleton]
      exact ⟨⟨⟨⟨nofun, hbefore⟩, nofun⟩, hduring⟩, nofun⟩
    obtain ⟨-, hperformed⟩ := performed_of_execAll hsrst hrun hf'
    exact chunk_of_performed hinv hothers hperformed
  · obtain ⟨hpass, rfl⟩ := passes_of_exec hexec hf'
    have ht := eq_genTable (hinv.tableValid (hpass.tv_eq rfl))
    exact ⟨ihdrData s, emitChunk_out ht ihdrLen ihdrType (ihdrData s), rfl⟩
  · obtain ⟨hpass, rfl⟩ := passes_of_exec hexec hf'
    have ht := eq_genTable (hinv.tableValid (hpass.tv_eq rfl))
    have hout := emitChunk_out ht 0#32 iendType []
    rw [List.append_nil, List.append_nil] at hout
    exact hout

end Sys2Proof.Machine

/-! ### The PNG chunks (R170 to R176)

CH_IHDR and CH_IEND emit a whole chunk at once; CH_LEN, CH_TYPE, one CH_DATA per byte and CH_END emit it piece by piece.
Both end in the same state, and a CH_DATAW is four CH_DATA, so each atomic command equals its sequence. -/

namespace Sys2Proof.Machine

/-! #### SIG (R170) -/

/-- SIG performed (R170). -/
theorem exec_sig {s : State} (hf : s.fault = false) (hidle : s.sst = .idle) :
    exec (.sig 0#24 0#32) s = .next (emit signature s) :=
  runGuarded_perform hf rfl (.inr (congrArg some hidle.symm)) nofun rfl

/-- Settles O28: the checks, none of which reads TV, and the emission, from reset too. -/
theorem sigEmitsTheSignature : Obligations.SigEmitsTheSignature := by
  refine ⟨decode_encode (.sig 0#24 0#32), fun rsv imm s hf hbad => ?_, fun s hf hsst => ?_, fun s hf hidle => ?_,
    _, exec_sig rfl rfl, ?_⟩
  · exact faultsWith_operand rfl hf (operandLegal_none_eq_false hbad)
  · exact faultsWith_state rfl hf rfl rfl hsst
  · rw [exec_sig hf hidle, emit_eq]
    rfl
  · rw [emit_eq]
    exact ⟨rfl, rfl⟩

/-! #### The further check of CH_IHDR (R174, R202) -/

/-- The further check of CH_IHDR passes with W and H other than 0 and a legal colour type (R202). -/
theorem needsIhdrFields_eq_none {s : State} (hw : s.w ≠ 0#32) (hh : s.h ≠ 0#32) (hct : s.ct = 0#8 ∨ s.ct = 2#8) :
    needsIhdrFields s = none := by
  refine if_neg ?_
  rintro (hw0 | hh0 | ⟨hct0, hct2⟩)
  · exact hw hw0
  · exact hh hh0
  · exact hct.elim hct0 hct2

/-- With its other checks passed, CH_IHDR takes E_IHDR where W, H or CT is not legal (R174). -/
theorem faultsWith_chIhdr_fields {s : State} (hf : s.fault = false) (hidle : s.sst = .idle) (htv : s.tv = true)
    (hbad : s.w = 0#32 ∨ s.h = 0#32 ∨ (s.ct ≠ 0#8 ∧ s.ct ≠ 2#8)) : FaultsWith (.chIhdr 0#24 0#32) 7#4 s :=
  faultsWith_further (code := .ihdr) rfl hf rfl (.inr (congrArg some hidle.symm)) (fun _ => htv) (if_pos hbad)

/-! #### SET_W, SET_H and SET_CT (R171 to R173) -/

/-- SET_W performed, with any SST and TV (R171). -/
theorem exec_setW {s : State} (hf : s.fault = false) (v : Word) : exec (.setW 0#24 v) s = .next { s with w := v } := by
  unfold exec execSetW
  exact runGuarded_perform hf rfl (.inl rfl) nofun rfl

/-- SET_H performed, with any SST and TV (R172). -/
theorem exec_setH {s : State} (hf : s.fault = false) (v : Word) : exec (.setH 0#24 v) s = .next { s with h := v } := by
  unfold exec execSetH
  exact runGuarded_perform hf rfl (.inl rfl) nofun rfl

/-- SET_CT performed, with any SST and TV (R173). -/
theorem exec_setCt {s : State} (hf : s.fault = false) (b : Byte) :
    exec (.setCt 0#24 (b.setWidth 32)) s = .next { s with ct := b } := by
  unfold exec execSetCt
  simp only [byteOperand_zeroExtend]
  exact runGuarded_perform hf (operandLegal_byte_setWidth b) (.inl rfl) nofun rfl

/-- Settles O29: the operand check, the write, and the width among CH_IHDR's fields. -/
theorem setWWritesTheWidth : Obligations.SetWWritesTheWidth :=
  ⟨fun v => decode_encode (.setW 0#24 v),
    fun _ v _ hf hrsv => faultsWith_operand rfl hf (operandLegal_word_eq_false hrsv v),
    fun v _ hf => exec_setW hf v,
    fun _ hf hidle htv hw => faultsWith_chIhdr_fields hf hidle htv (.inl hw)⟩

/-- Settles O30: the operand check, the write, and the height among CH_IHDR's fields. -/
theorem setHWritesTheHeight : Obligations.SetHWritesTheHeight :=
  ⟨fun v => decode_encode (.setH 0#24 v),
    fun _ v _ hf hrsv => faultsWith_operand rfl hf (operandLegal_word_eq_false hrsv v),
    fun v _ hf => exec_setH hf v,
    fun _ hf hidle htv hh => faultsWith_chIhdr_fields hf hidle htv (.inr (.inl hh))⟩

/-- Settles O31: the operand check, the write, and the colour type among CH_IHDR's fields. -/
theorem setCtWritesTheColourType : Obligations.SetCtWritesTheColourType := by
  refine ⟨fun b => ?_, fun rsv imm s hf hbad => ?_, fun b s hf => exec_setCt hf b, fun s hf hidle htv hct0 hct2 => ?_⟩
  · rw [append_byte_eq_commandWord, decode_commandWord]
    rfl
  · exact faultsWith_operand rfl hf (operandLegal_byte_eq_false hbad)
  · exact faultsWith_chIhdr_fields hf hidle htv (.inr (.inr ⟨hct0, hct2⟩))

/-! #### A whole chunk, piece by piece and at once (R175, R176) -/

/-- With room for the words' bytes, one CH_DATAW per word, before the commands that follow, is one CH_DATA per byte
(R145). -/
theorem execAll_chDataws_append (vs : List Word) (is : List Instr) {s : State} (hf : s.fault = false)
    (hdata : s.sst = .data) (hrem : 4 * vs.length ≤ s.rem.toNat) :
    execAll (vs.map (.chDataw 0#24) ++ is) s = execAll (chDatas (vs.flatMap be32) ++ is) s := by
  induction vs generalizing s with
  | nil => rfl
  | cons v vs ih =>
    rw [List.length_cons] at hrem
    have hfour : 4 ≤ s.rem.toNat := by omega
    have hput := exec_chDataw hf hdata hfour v
    have hputs := (exec_chDataw_eq_chDatas hf hdata hfour v).symm.trans hput
    have hrem' : (putWord v s).rem.toNat = s.rem.toNat - 4 := by
      rw [putWord_eq]
      exact rem_sub_toNat hfour
    have hf' : (putWord v s).fault = false := by rw [putWord_eq]; exact hf
    have hdata' : (putWord v s).sst = .data := by rw [putWord_eq]; exact hdata
    have hsplit : chDatas ((v :: vs).flatMap be32) ++ is = chDatas (be32 v) ++ (chDatas (vs.flatMap be32) ++ is) := by
      simp [chDatas]
    rw [hsplit, execAll_append _ _ _ _ hputs, ← ih hf' hdata' (by omega)]
    exact execAll_cons _ _ _ _ hput

/-- A chunk has 12 bytes besides its data (R140). -/
theorem chunkBytes_length (t : Table) (n ty : Word) (d : List Byte) : (chunkBytes t n ty d).length = 12 + d.length := by
  simp only [chunkBytes, List.length_append, be32_length]
  omega

/-- CH_LEN, CH_TYPE, one CH_DATA per byte and CH_END have the effect that CH_IHDR and CH_IEND have at once (R175,
R176). -/
theorem execAll_wholeChunk {s : State} (hf : s.fault = false) (hidle : s.sst = .idle) (htv : s.tv = true)
    {n : Word} (ty : Word) {d : List Byte} (hlen : d.length = n.toNat) :
    execAll (.chLen 0#24 n :: .chType 0#24 ty :: (chDatas d ++ [.chEnd 0#24 0#32])) s =
      .next (emitChunk n ty d s) := by
  have hn : BitVec.ofNat 32 d.length = n := by rw [hlen, BitVec.ofNat_toNat, BitVec.setWidth_eq]
  have hcount : s.outCnt + 4#32 + 4#32 + n + 4#32 = s.outCnt + BitVec.ofNat 32 (chunkBytes s.t n ty d).length := by
    rw [chunkBytes_length, BitVec.ofNat_add, hn]
    bv_omega
  have hputs := execAll_chDatas d (s := putType ty (openChunk n s)) (by simp [hf]) (by simp) (by simp [hlen])
  rw [execAll_chLen_chType hf hidle htv, execAll_append _ _ _ _ hputs]
  refine (execAll_cons _ _ _ _ (exec_chEnd ?hfault ?hdata ?hrem)).trans ?hfinal
  case hfinal =>
    rw [closeChunk_eq, putType_openChunk_eq, emitChunk_eq, ← hcount]
    simp only [execAll, chunkBytes, updStar_append, hn, BitVec.sub_self, List.append_assoc, ← hidle]
  all_goals simp [hf, hn]

/-! #### CH_IHDR (R174, R175) -/

/-- CH_IHDR performed (R175). -/
theorem exec_chIhdr {s : State} (hf : s.fault = false) (hidle : s.sst = .idle) (htv : s.tv = true) (hw : s.w ≠ 0#32)
    (hh : s.h ≠ 0#32) (hct : s.ct = 0#8 ∨ s.ct = 2#8) :
    exec (.chIhdr 0#24 0#32) s = .next (emitChunk ihdrLen ihdrType (ihdrData s) s) := by
  unfold exec execChIhdr
  exact runGuarded_perform hf rfl (.inr (congrArg some hidle.symm)) (fun _ => htv) (needsIhdrFields_eq_none hw hh hct)

/-- The ten commands of R175 put the IHDR chunk: two words and five bytes are its 13 data bytes. -/
theorem execAll_ihdrSequence {s : State} (hf : s.fault = false) (hidle : s.sst = .idle) (htv : s.tv = true) :
    execAll
      [.chLen 0#24 13#32, .chType 0#24 0x49484452#32, .chDataw 0#24 s.w, .chDataw 0#24 s.h, .chData 0#24 8#32,
        .chData 0#24 (s.ct.setWidth 32), .chData 0#24 0#32, .chData 0#24 0#32, .chData 0#24 0#32, .chEnd 0#24 0#32] s
      = .next (emitChunk ihdrLen ihdrType (ihdrData s) s) := by
  have hlen : (ihdrData s).length = ihdrLen.toNat := rfl
  have hwords := execAll_chDataws_append [s.w, s.h]
    (chDatas [bitDepth, s.ct, compressionMethod, filterMethod, interlaceMethod] ++ [.chEnd 0#24 0#32])
    (s := putType ihdrType (openChunk ihdrLen s)) (by simp [hf]) (by simp) (by simp [ihdrLen])
  rw [← execAll_wholeChunk hf hidle htv ihdrType hlen, execAll_chLen_chType hf hidle htv,
    execAll_chLen_chType hf hidle htv]
  exact hwords

/-- The reduce of the IHDR chunk of a 2 by 2 greyscale image (R175). -/
theorem updStar_initAcc_ihdr {t : Table} (ht : ∀ n : Fin 256, t[n] = genEntry n) {s : State} (hw : s.w = 2#32)
    (hh : s.h = 2#32) (hct : s.ct = 0#8) : updStar t initAcc (be32 ihdrType ++ ihdrData s) = 0xA822AD07#32 := by
  rw [updStar_eq_foldl ht, ihdrData, hw, hh, hct]
  decide +kernel

/-- Settles O32: the checks in order; the chunk at once and by the ten commands; the example by the reduce of its type
and data. -/
theorem chIhdrEmitsTheHeaderChunk : Obligations.ChIhdrEmitsTheHeaderChunk := by
  refine ⟨decode_encode (.chIhdr 0#24 0#32), fun rsv imm s hf hbad => ?_, fun s hf hsst => ?_,
    fun s hf hidle htv => ?_, fun s => faultsWith_chIhdr_fields, fun s d a hf hidle htv hw hh hct hd ha => ⟨?_, ?_⟩,
    fun s hf hidle htv ht hw hh hct => ?_⟩
  · exact faultsWith_operand rfl hf (operandLegal_none_eq_false hbad)
  · exact faultsWith_state rfl hf rfl rfl hsst
  · exact faultsWith_table rfl hf rfl (.inr (congrArg some hidle.symm)) rfl htv
  · rw [exec_chIhdr hf hidle htv hw hh hct, emitChunk_eq, ha, hd]
    rfl
  · rw [exec_chIhdr hf hidle htv hw hh hct, execAll_ihdrSequence hf hidle htv]
  · have hexec := exec_chIhdr hf hidle htv (by simp [hw]) (by simp [hh]) (.inl hct)
    have hacc := updStar_initAcc_ihdr ht hw hh hct
    have hcrc : (0xA822AD07#32 : Word) ^^^ xorOut = 0x57DD52F8#32 := by decide
    refine ⟨_, hexec, ?_⟩
    rw [emitChunk_eq, chunkBytes, hacc, hcrc, ihdrData, hw, hh, hct]
    exact ⟨congrArg (s.out ++ ·) (by decide), rfl, rfl⟩

/-! #### CH_IEND (R176) -/

/-- CH_IEND performed (R176). -/
theorem exec_chIend {s : State} (hf : s.fault = false) (hidle : s.sst = .idle) (htv : s.tv = true) :
    exec (.chIend 0#24 0#32) s = .next (emitChunk 0#32 iendType [] s) :=
  runGuarded_perform hf rfl (.inr (congrArg some hidle.symm)) (fun _ => htv) rfl

/-- Settles O33: the checks in order; the chunk at once and by the three commands; the values by the reduce of
"IEND". -/
theorem chIendEmitsTheEndChunk : Obligations.ChIendEmitsTheEndChunk := by
  refine ⟨decode_encode (.chIend 0#24 0#32), fun rsv imm s hf hbad => ?_, fun s hf hsst => ?_,
    fun s hf hidle htv => ?_, fun s a hf hidle htv ha => ⟨?_, ?_⟩, fun s hf hidle htv ht => ?_⟩
  · exact faultsWith_operand rfl hf (operandLegal_none_eq_false hbad)
  · exact faultsWith_state rfl hf rfl rfl hsst
  · exact faultsWith_table rfl hf rfl (.inr (congrArg some hidle.symm)) rfl htv
  · rw [exec_chIend hf hidle htv, emitChunk_eq, ha]
    rfl
  · rw [exec_chIend hf hidle htv]
    exact (execAll_wholeChunk hf hidle htv iendType rfl).symm
  · obtain ⟨-, -, hiend⟩ := updStar_initAcc_be32_values ht
    have hcrc : (0x51BD9F7D#32 : Word) ^^^ xorOut = 0xAE426082#32 := by decide
    refine ⟨_, exec_chIend hf hidle htv, ?_⟩
    rw [emitChunk_eq, chunkBytes, List.append_nil, hiend, hcrc]
    exact ⟨congrArg (s.out ++ ·) (by decide), rfl, rfl⟩

end Sys2Proof.Machine

/-! ### NOP and SRST (R190, R191)

NOP, SRST and REG_RD have the operand check alone: with a legal operand they act in every state, and with any other they
fault or, in the fault state, are discarded. -/

namespace Sys2Proof.Machine

/-- With a legal operand NOP, SRST and REG_RD are performed in every state (R206). -/
theorem exec_performed_in_every_state {i : Instr} (hi : actsInFaultState i = true)
    (hlegal : operandLegal i.opClass i.fields.1 i.fields.2 = true) (s : State) : exec i s = .next (effect i s) := by
  rw [exec_eq_runAlways hi, runAlways, if_pos hlegal]

/-- With a bad operand NOP, SRST and REG_RD are discarded by the fault state too (R206). -/
theorem exec_bad_operand_discarded {i : Instr} {s : State} (hi : actsInFaultState i = true)
    (hbad : operandLegal i.opClass i.fields.1 i.fields.2 = false) (hf : s.fault = true) : exec i s = .next s := by
  simp [exec_eq_runAlways hi, runAlways, hbad, hf]

/-- With a bad operand and FAULT = 0 NOP, SRST and REG_RD take E_OPERAND (R203). -/
theorem faultsWith_operand_of_actsInFaultState {i : Instr} {s : State} (hi : actsInFaultState i = true)
    (hbad : operandLegal i.opClass i.fields.1 i.fields.2 = false) (hf : s.fault = false) : FaultsWith i 2#4 s := by
  simp [FaultsWith, exec_eq_runAlways hi, runAlways, hbad, hf, raiseFault, FaultCode.bits]

/-- Settles O34: a legal NOP performs the empty effect; a malformed one faults or is discarded. -/
theorem nopDoesNothing : Obligations.NopDoesNothing := by
  refine ⟨decode_encode (.nop 0#24 0#32), fun rsv imm s hf hbad => ?_, fun s => ?_, fun rsv imm s hf hbad => ?_⟩
  · exact faultsWith_operand_of_actsInFaultState rfl (operandLegal_none_eq_false hbad) hf
  · exact exec_performed_in_every_state rfl rfl s
  · exact exec_bad_operand_discarded rfl (operandLegal_none_eq_false hbad) hf

/-- SRST performed, in any state (R191). -/
theorem exec_srst (s : State) : exec (.srst 0#24 0#32) s = .next (resetState s) :=
  exec_performed_in_every_state rfl rfl s

/-- STATUS reads 0 after a reset of any state (R39, R231). -/
theorem statusPort_resetState (s : State) : statusPort (resetState s) = 0#32 := by
  simp [statusPort, statusWord, zextBool, Sst.bits]

/-- A command that leaves the fault state is a valid SRST: it was performed, and no other effect writes FAULT (R191). -/
theorem eq_srst_of_leaves_fault {i : Instr} {s s' : State} (hf : s.fault = true) (hexec : exec i s = .next s')
    (hf' : s'.fault = false) : i = .srst 0#24 0#32 := by
  obtain ⟨hpass, rfl⟩ := passes_of_exec hexec hf'
  by_cases hsrst : ∀ rsv imm, i ≠ .srst rsv imm
  · cases hf.symm.trans ((effect_fault hsrst s).symm.trans hf')
  · push Not at hsrst
    obtain ⟨rsv, imm, rfl⟩ := hsrst
    have hrsv : rsv = 0#24 := hpass.rsv_eq_zero
    have himm : imm = 0#32 := beq_iff_eq.mp hpass.immLegal
    rw [hrsv, himm]

/-- Settles O35: a legal SRST performs the reset, whose values are read off; a malformed one faults or is discarded. -/
theorem srstResetsTheBlock : Obligations.SrstResetsTheBlock := by
  refine ⟨decode_encode (.srst 0#24 0#32), fun rsv imm s hf hbad => ?_, exec_srst, fun rsv imm s hf hbad => ?_,
    fun s s' hexec => ?_, fun i s s' => eq_srst_of_leaves_fault, fun s hbusy => ?_⟩
  · exact faultsWith_operand_of_actsInFaultState rfl (operandLegal_none_eq_false hbad) hf
  · exact exec_bad_operand_discarded rfl (operandLegal_none_eq_false hbad) hf
  · cases (exec_srst s).symm.trans hexec
    exact ⟨statusPort_resetState s, resetState_acc s, resetState_result s, resetState_tv s⟩
  · simp [portReady, hbusy]

end Sys2Proof.Machine

/-! ### The fault state and how it is entered (R200 to R207)

With FAULT = 0 every command is its row of checks and its effect, and the first failing check is the one R202 and R203
predict. With FAULT = 1 a command is `fault_filter` of R206. What a step can do in either case is read off
`StepOutcome`. -/

namespace Sys2Proof.Machine

/-! #### With FAULT = 1 (R206, R207) -/

/-- No register has a selector above 11 (R42). -/
theorem regview_eq_none {sel : Word} (h : 12 ≤ sel.toNat) (s : State) : regview sel s = none := by
  unfold regview
  split
  case h_13 => rfl
  all_goals omega

/-- REG_RD of a selector with no register leaves the state as it is (log entry 17). -/
theorem readRegister_eq_self {sel : Word} (h : 12 ≤ sel.toNat) (s : State) : readRegister sel s = s := by
  rw [readRegister, regview_eq_none h]

/-- `fault_filter` on a command that the fault state discards (R206). -/
theorem faultFilter_of_discarded {i : Instr} (hi : actsInFaultState i = false) (s : State) : faultFilter i s = s := by
  cases i with
  | nop | srst | regRd => cases hi
  | _ => rfl

/-- `fault_filter` on NOP, SRST and REG_RD is their operand check and their effect (R206). -/
theorem faultFilter_of_actsInFaultState {i : Instr} (hi : actsInFaultState i = true) (s : State) :
    faultFilter i s = bif operandLegal i.opClass i.fields.1 i.fields.2 then effect i s else s := by
  cases i with
  | nop rsv imm => exact (Bool.cond_self ..).symm
  | srst rsv imm =>
    simp [faultFilter, ← resetState_eq, Instr.opClass, Instr.fields, operandLegal, immLegal, effect, Bool.cond_eq_ite]
  | regRd rsv sel =>
    have hfilter : faultFilter (.regRd rsv sel) s = if rsv = 0#24 then readRegister sel s else s := rfl
    rw [hfilter]
    by_cases hrsv : rsv = 0#24
    · by_cases hsel : sel.toNat ≤ 11
      · simp [hrsv, hsel, Instr.opClass, Instr.fields, operandLegal, immLegal, effect]
      · simp [hrsv, hsel, Instr.opClass, Instr.fields, operandLegal, immLegal, readRegister_eq_self (not_le.mp hsel)]
    · have hbad : operandLegal .s rsv sel = false := operandLegal_sel_eq_false (.inl hrsv)
      simp [hrsv, Instr.opClass, Instr.fields, hbad]
  | _ => cases hi

/-- In the fault state every command is `fault_filter` (R206). -/
theorem exec_eq_faultFilter (i : Instr) {s : State} (hf : s.fault = true) : exec i s = .next (faultFilter i s) := by
  cases hi : actsInFaultState i with
  | false => rw [exec_discarded hi hf, faultFilter_of_discarded hi]
  | true =>
    rw [faultFilter_of_actsInFaultState hi]
    cases hlegal : operandLegal i.opClass i.fields.1 i.fields.2 with
    | false => exact exec_bad_operand_discarded hi hlegal hf
    | true => exact exec_performed_in_every_state hi hlegal s

/-- An accepted word that fails to decode runs as an illegal one (R84). -/
theorem execute_of_decode_error {word : CmdWord} {e : DecodeError} (h : decode word = .error e) (s : State) :
    execute word s = runIllegal word s := by
  rw [execute, h]

/-- Settles O40: a decoded word is filtered, and an illegal one is discarded. -/
theorem faultStateDiscardsEverythingElse : Obligations.FaultStateDiscardsEverythingElse := by
  refine ⟨fun i s hf => exec_eq_faultFilter i hf, fun word e s hf hdecode => ?_⟩
  rw [execute_of_decode_error hdecode]
  exact if_pos hf

/-- From the fault state a step is a reset, or keeps FAULT, ERR, ERRHI and ERRLO: no second fault is taken (R207). -/
theorem reset_or_keeps_first_fault {s s' : State} (hf : s.fault = true) (hstep : step s = .next s') :
    (ResetStep s ∧ ∃ u, s' = resetState u) ∨
      (s'.fault = true ∧ s'.err = s.err ∧ s'.errHi = s.errHi ∧ s'.errLo = s.errLo) := by
  cases stepOutcome_of_step hstep with
  | reset acts hreset => exact .inl ⟨hreset, _, rfl⟩
  | generate acts =>
    rw [stepGen_frame]
    exact .inr ⟨hf, rfl, rfl, rfl⟩
  | hold acts => exact .inr ⟨hf, rfl, rfl, rfl⟩
  | fault acts code word hbusy hnofault => cases hf.symm.trans hnofault
  | perform acts i haccepts hsrst =>
    rw [effect_frame hsrst]
    exact .inr ⟨hf, rfl, rfl, rfl⟩

/-- Settles O43: a reset clears FAULT and has the values of R47; every other step keeps the first fault. -/
theorem onlyAResetLeavesTheFaultState : Obligations.OnlyAResetLeavesTheFaultState := by
  intro s s' hstep hf
  rcases reset_or_keeps_first_fault hf hstep with ⟨hreset, u, rfl⟩ | ⟨hf', hkeep⟩
  · exact ⟨fun _ => ⟨hreset, rfl, rfl, rfl⟩, nofun⟩
  · exact ⟨fun hno => absurd (hf'.symm.trans hno) nofun, fun _ => hkeep⟩

/-- A performed REG_RD writes the selected register to RESULT (R42, R192). -/
theorem regview_of_passes {rsv : Rsv} {sel : Word} {s : State} (hpass : Passes (.regRd rsv sel) s) :
    regview sel s = some (readRegister sel s).result := by
  have hsel : sel.toNat ≤ 11 := of_decide_eq_true hpass.immLegal
  obtain ⟨v, hv⟩ := Option.isSome_iff_exists.mp (regview_isSome sel s hsel)
  simp [readRegister, hv]

/-- Settles O44: the generator is at rest in the fault state, and of the commands performed there NOP does nothing and
REG_RD writes RESULT. -/
theorem faultStateHoldsUntilAReset : Obligations.FaultStateHoldsUntilAReset := by
  intro s s' hinv hf hstep hno
  cases stepOutcome_of_step hstep with
  | reset acts hreset => exact absurd hreset hno
  | generate acts hbusy =>
    obtain ⟨-, -, hnofault⟩ := hinv.busyAlone hbusy
    cases hf.symm.trans hnofault
  | hold acts => exact ⟨rfl, fun hne => absurd rfl hne⟩
  | fault acts code word hbusy hnofault => cases hf.symm.trans hnofault
  | perform acts i haccepts hsrst hpass hacts =>
    have hi : actsInFaultState i = true := hacts hf
    cases i with
    | nop => exact ⟨rfl, fun hne => absurd rfl hne⟩
    | srst rsv imm => exact absurd rfl (hsrst rsv imm)
    | regRd rsv sel =>
      have hrsv : rsv = 0#24 := hpass.rsv_eq_zero
      refine ⟨?_, fun _ => ⟨sel, hrsv ▸ haccepts, regview_of_passes hpass⟩⟩
      rw [effect, readRegister_frame]
    | _ => cases hi

/-! #### With FAULT = 0 (R200 to R205) -/

/-- With FAULT = 0 every command, NOP, SRST and REG_RD among them, is its row of checks and its effect (R203). -/
theorem exec_eq_runGuarded_of_no_fault (i : Instr) {s : State} (hf : s.fault = false) :
    exec i s = runGuarded i (needsOf i) (furtherCheck i) (effect i) s := by
  cases hi : actsInFaultState i with
  | false => exact exec_eq_runGuarded hi s
  | true =>
    cases hlegal : operandLegal i.opClass i.fields.1 i.fields.2 with
    | false =>
      have hfail : firstFailure (needsOf i) i.fields.1 i.fields.2 (furtherCheck i) s = some .operand := if_pos hlegal
      simp [exec_eq_runAlways hi, runAlways, runGuarded, hlegal, hf, hfail]
    | true =>
      have hpass : firstFailure (needsOf i) i.fields.1 i.fields.2 (furtherCheck i) s = none :=
        passes_of_actsInFaultState hi s hlegal
      simp [exec_eq_runAlways hi, runAlways, runGuarded, hlegal, hf, hpass]

/-- The further-check column of R202 is the machine's further check with its ERR value, 0 where it passes. -/
theorem furtherFault_eq (i : Instr) (s : State) : furtherFault i s = (furtherCheck i s).elim 0#4 FaultCode.bits := by
  cases i with
  | chData | chDataw =>
    simp only [furtherFault, furtherCheck, needsRem]
    split <;> rfl
  | chEnd =>
    simp only [furtherFault, furtherCheck, needsRemZero]
    split <;> rfl
  | chIhdr =>
    have hfields : (s.w ≠ 0#32 ∧ s.h ≠ 0#32 ∧ (s.ct = 0#8 ∨ s.ct = 2#8)) ↔
        ¬ (s.w = 0#32 ∨ s.h = 0#32 ∨ (s.ct ≠ 0#8 ∧ s.ct ≠ 2#8)) := by tauto
    simp only [furtherFault, furtherCheck, needsIhdrFields, hfields, ite_not]
    split <;> rfl
  | _ => rfl

/-- The fault R202 and R203 predict is the first failing check's, 0 where every check passes. -/
theorem predictedFault_eq (i : Instr) (s : State) : predictedFault i s =
    (firstFailure (needsOf i) i.fields.1 i.fields.2 (furtherCheck i) s).elim 0#4 FaultCode.bits := by
  have hsst : ((sstRequired i).isSome && sstRequired i != some s.sst) = true ↔
      sstRequired i ≠ none ∧ sstRequired i ≠ some s.sst := by
    simp [Option.isSome_iff_ne_none]
  have htable : (tableRequired i && !s.tv) = true ↔ tableRequired i = true ∧ s.tv = false := by simp
  simp only [predictedFault, firstFailure, needsOf, wellFormed_eq_operandLegal, furtherFault_eq, hsst, htable,
    apply_ite (Option.elim · 0#4 FaultCode.bits)]
  rfl

/-- With FAULT = 0 and every check passed the command is performed (R203). -/
theorem exec_of_passes {i : Instr} {s : State} (hf : s.fault = false) (hpass : Passes i s) :
    exec i s = .next (effect i s) := by
  rw [Passes] at hpass
  simp [exec_eq_runGuarded_of_no_fault i hf, runGuarded, hf, hpass]

/-- A performed command leaves FAULT = 0, SRST too (R203, R231). -/
theorem effect_no_fault (i : Instr) {s : State} (hf : s.fault = false) : (effect i s).fault = false := by
  by_cases hsrst : ∀ rsv imm, i ≠ .srst rsv imm
  · exact (effect_fault hsrst s).trans hf
  · push Not at hsrst
    obtain ⟨rsv, imm, rfl⟩ := hsrst
    rfl

/-- With FAULT = 0 a predicted fault is taken (R202, R203, R204). -/
theorem faultsWith_predictedFault {i : Instr} {s : State} (hf : s.fault = false) (hne : predictedFault i s ≠ 0#4) :
    FaultsWith i (predictedFault i s) s := by
  rw [predictedFault_eq] at hne ⊢
  cases hfail : firstFailure (needsOf i) i.fields.1 i.fields.2 (furtherCheck i) s with
  | none => simp [hfail] at hne
  | some code =>
    rw [FaultsWith, exec_eq_runGuarded_of_no_fault i hf]
    simp only [runGuarded, hf, hfail]
    rfl

/-- Where no fault is predicted every check passes (R202, R203). -/
theorem passes_of_predictedFault_eq_zero {i : Instr} {s : State} (h : predictedFault i s = 0#4) : Passes i s := by
  rw [predictedFault_eq] at h
  cases hfail : firstFailure (needsOf i) i.fields.1 i.fields.2 (furtherCheck i) s with
  | none => exact hfail
  | some code =>
    rw [hfail] at h
    exact absurd h code.bits_range.1

/-- Settles O41: the predicted fault is that of the first failing check, with FAULT = 0 in effect for every command. -/
theorem earliestFailingCheckDecidesTheFault : Obligations.EarliestFailingCheckDecidesTheFault := by
  refine ⟨fun i s => faultsWith_predictedFault, fun i s hf hzero => ?_, fun word e s hf hdecode => ?_,
    fun i s hf => exec_eq_faultFilter i hf⟩
  · exact ⟨effect i s, exec_of_passes hf (passes_of_predictedFault_eq_zero hzero), effect_no_fault i hf⟩
  · rw [execute_of_decode_error hdecode, runIllegal, hf]
    rfl

/-- An accepted word that enters the fault state takes a fault with that very word (R204). -/
theorem eq_raiseFault_of_enters_fault {word : CmdWord} {s s' : State} (hf : s.fault = false)
    (hexec : execute word s = .next s') (hf' : s'.fault = true) : ∃ code, s' = raiseFault code word s := by
  cases hdecode : decode word with
  | error e =>
    rw [execute_of_decode_error hdecode, runIllegal, hf] at hexec
    cases hexec
    exact ⟨.opcode, rfl⟩
  | ok i =>
    rw [execute, hdecode] at hexec
    rcases exec_cases i s with ⟨hfault, -⟩ | ⟨code, -, hs⟩ | ⟨-, -, hs⟩
    · cases hf.symm.trans hfault
    · cases hexec.symm.trans hs
      exact ⟨code, by rw [encode_of_decode_eq_ok hdecode]⟩
    · cases hexec.symm.trans hs
      cases hf'.symm.trans (effect_no_fault i hf)

/-- Settles O42: the new state is `raiseFault` with one of the codes of R200. -/
theorem faultsArePrecise : Obligations.FaultsArePrecise := by
  intro word s s' hf hexec hf'
  obtain ⟨code, rfl⟩ := eq_raiseFault_of_enters_fault hf hexec hf'
  obtain ⟨hne, hle⟩ := code.bits_range
  exact ⟨code.bits, Nat.pos_of_ne_zero fun h => hne (BitVec.eq_of_toNat_eq h), hle, rfl⟩

/-! #### Every step (R201, R215) -/

/-- Every step gives a next state (R201). -/
theorem exists_step_eq_next (s : State) : ∃ s', step s = .next s' := by
  rcases step_cases s with ⟨rest, -, h⟩ | ⟨acts, -, h⟩ | ⟨word, rest, -, -, h⟩ | ⟨acts, -, h⟩
  case inr.inr.inl =>
    obtain ⟨t, ht, -⟩ := execute_hostActs word { s with hostActs := rest }
    exact ⟨t, h.trans ht⟩
  all_goals exact ⟨_, h⟩

/-- Settles O45: of the four kinds of step a reset clears FAULT and only an accepted word sets it. -/
theorem noStepStopsTheBlock : Obligations.NoStepStopsTheBlock := by
  refine ⟨exists_step_eq_next, fun s s' hstep hf hf' => ?_⟩
  rcases step_cases s with ⟨rest, -, h⟩ | ⟨acts, -, h⟩ | ⟨word, rest, hacts, hbusy, -⟩ | ⟨acts, -, h⟩
  · cases hstep.symm.trans h
    cases hf'
  · cases hstep.symm.trans h
    rw [stepGen_frame] at hf'
    cases hf.symm.trans hf'
  · exact ⟨word, rest, hacts, hbusy⟩
  · cases hstep.symm.trans h
    cases hf.symm.trans hf'

/-- A host that does nothing for a step uses up that action alone, with the generator at rest (R215). -/
theorem step_idle_ready {s : State} {rest : List HostAction} (hbusy : s.busy = false)
    (hacts : s.hostActs = .idle :: rest) : step s = .next { s with hostActs := rest } := by
  simp [step, nextActivity, undisturbed, hacts, hbusy]

/-- Settles O9: the quiet step, with no host action and with an idle one. -/
theorem quietBlockHoldsItsState : Obligations.QuietBlockHoldsItsState :=
  ⟨fun _ => step_nil_ready, fun _ _ => step_idle_ready⟩

end Sys2Proof.Machine

/-! ### Resets, the closing of the port, and the bytes of each command (R230 to R232, R235, R240)

The reset input takes the block from any state to `resetState`, so a reset during a generation keeps the table of the
generator step it interrupts. -/

namespace Sys2Proof.Machine

/-! #### The reset input (R230, R231) -/

/-- The reset input comes first, whatever the block is doing (R230). -/
theorem step_resetInput {s : State} {rest : List HostAction} (hacts : s.hostActs = .resetInput :: rest) :
    step s = .next (resetState { s with hostActs := rest }) := by
  simp [step, nextActivity, hacts]

/-- Settles O38: the step is `resetState`, which is SRST's effect. -/
theorem resetInputActsAtAnyTime : Obligations.ResetInputActsAtAnyTime := by
  intro s rest hacts
  have hstep := step_resetInput hacts
  refine ⟨hstep.trans (congrArg _ (resetState_eq _)), hstep.trans (exec_srst _).symm, fun s' hnext => ?_⟩
  cases hstep.symm.trans hnext
  exact ⟨statusPort_resetState _, rfl, rfl, rfl⟩

/-! #### A reset during a generation (R232) -/

/-- The entries the generator has not reached hold what they held (R102). -/
theorem filledTo_getElem_of_le (t : Table) (k : Nat) : ∀ n : Fin 256, k ≤ n.val → (filledTo t k)[n] = t[n] := by
  induction k with
  | zero => exact fun _ _ => rfl
  | succ k ih =>
    intro n hn
    have hkeep : (filledTo t (k + 1))[n] = (filledTo t k)[n] := Vector.getElem_setIfInBounds_ne n.isLt (by omega)
    exact hkeep.trans (ih n (by omega))

/-- A host that does nothing for a step uses up that action and leaves a running generator alone (R102, R235). -/
theorem step_idle_busy {s : State} {rest : List HostAction} (hbusy : s.busy = true)
    (hacts : s.hostActs = .idle :: rest) : step s = .next (stepGen { s with hostActs := rest }) := by
  simp [step, nextActivity, undisturbed, hacts, hbusy]

/-- `k` steps, fewer than 2048, after TBL_GEN's effect, with a host that does nothing in them (R102). -/
theorem runSteps_startGen_idle (s : State) {k : Nat} (hk : k < 2048) (acts : List HostAction) :
    runSteps k (startGen { s with hostActs := List.replicate k .idle ++ acts }) =
      .next (generatorAt { s with hostActs := acts } k) := by
  induction k generalizing acts with
  | zero => rfl
  | succ k ih =>
    have hrun := ih (by omega) (.idle :: acts)
    have hstep : step (generatorAt { s with hostActs := .idle :: acts } k) =
        .next (stepGen (generatorAt { s with hostActs := acts } k)) := step_idle_busy rfl rfl
    rw [stepGen_generatorAt _ (by omega)] at hstep
    rw [List.replicate_succ', List.append_assoc]
    exact runSteps_snoc hrun hstep

/-- Settles O39: the acceptance, `k` generator steps, and a reset that keeps the table they have filled so far. -/
theorem resetStopsARunningGeneration : Obligations.ResetStopsARunningGeneration := by
  intro s k hbusy hf hidle hk
  refine ⟨filledTo s.t (k / 8), ?_, fun n => ?_⟩
  · have haccept := step_offer_tblGen (rest := List.replicate k .idle ++ [.resetInput]) hbusy hf hidle
    have hrun := runSteps_startGen_idle s hk [.resetInput]
    have hreset := step_resetInput (generatorAt_hostActs { s with hostActs := [.resetInput] } k)
    rw [resetState_eq] at hreset
    exact (runSteps_succ (k + 1) _ _ haccept).trans (runSteps_snoc hrun hreset)
  · split
    next hn => exact filledTo_getElem s.t (k / 8) n hn
    next hn => exact filledTo_getElem_of_le s.t (k / 8) n (not_lt.mp hn)

/-! #### The port (R235) -/

/-- The port is ready exactly when BUSY = 0 (R87, R235). -/
theorem portReady_iff (s : State) : portReady s = true ↔ s.busy = false := by
  simp [portReady]

/-- Only TBL_GEN's effect writes BUSY = 1 (R101, R235). -/
theorem eq_tblGen_of_effect_busy {i : Instr} {s : State} (hbusy : s.busy = false) (hbusy' : (effect i s).busy = true) :
    ∃ rsv imm, i = .tblGen rsv imm := by
  cases i with
  | tblGen rsv imm => exact ⟨rsv, imm, rfl⟩
  | srst => cases hbusy'
  | regRd =>
    rw [effect, readRegister_frame] at hbusy'
    cases hbusy.symm.trans hbusy'
  | sig | chLen | chType | chData | chDataw | chEnd | chIhdr | chIend =>
    simp only [effect, emit_eq, openChunk_eq, putType_eq, putByte_eq, putWord_eq, closeChunk_eq, emitChunk_eq] at hbusy'
    cases hbusy.symm.trans hbusy'
  | _ => cases hbusy.symm.trans hbusy'

/-- Settles O8: of the outcomes of a step from a ready port only a performed TBL_GEN closes it, and its operand check
has passed. -/
theorem onlyTblGenClosesThePort : Obligations.OnlyTblGenClosesThePort := by
  refine ⟨fun s s' hstep hready hclosed => ?_, portReady_iff⟩
  have hbusy : s.busy = false := (portReady_iff s).mp hready
  have hbusy' : s'.busy = true := by simpa [portReady] using hclosed
  cases stepOutcome_of_step hstep with
  | reset acts => cases hbusy'
  | generate acts hgen => cases hbusy.symm.trans hgen
  | hold acts | fault acts => cases hbusy.symm.trans hbusy'
  | perform acts i haccepts hsrst hpass =>
    obtain ⟨rsv, imm, rfl⟩ := eq_tblGen_of_effect_busy (s := { s with hostActs := acts }) hbusy hbusy'
    have hrsv : rsv = 0#24 := hpass.rsv_eq_zero
    have himm : imm = 0#32 := beq_iff_eq.mp hpass.immLegal
    exact hrsv ▸ himm ▸ haccepts

/-! #### The bytes of each command (R240) -/

/-- The bytes a command emits are as many as R240 counts. -/
theorem emittedBytes_length (i : Instr) (s : State) : (emittedBytes i s).length = emittedCount i := by
  cases i with
  | chIhdr => exact chunkBytes_length s.t ihdrLen ihdrType (ihdrData s)
  | chIend => exact chunkBytes_length s.t 0#32 iendType []
  | _ => rfl

/-- A performed command adds the bytes R240 counts to OUT; SRST adds none (R231, R240). -/
theorem effect_out_length (i : Instr) (s : State) : (effect i s).out.length = s.out.length + emittedCount i := by
  by_cases hsrst : ∀ rsv imm, i ≠ .srst rsv imm
  · obtain ⟨hout, -⟩ := effect_emits hsrst s
    rw [hout, List.length_append, emittedBytes_length]
  · push Not at hsrst
    obtain ⟨rsv, imm, rfl⟩ := hsrst
    rfl

/-- The commands performed in the fault state emit nothing (R206). -/
theorem effect_out_of_actsInFaultState {i : Instr} (hi : actsInFaultState i = true) (s : State) :
    (effect i s).out = s.out := by
  cases i with
  | nop | srst => rfl
  | regRd => rw [effect, readRegister_frame]
  | _ => cases hi

/-- Settles O50: a command that ends with FAULT = 0 was performed; one that meets FAULT = 1 is discarded, takes a fault,
or is one of those the fault state performs. -/
theorem everyCommandEmitsItsByteCount : Obligations.EveryCommandEmitsItsByteCount := by
  refine ⟨fun i s s' _ hexec hf' => ?_, fun i s s' hfault hexec => ?_⟩
  · obtain ⟨-, rfl⟩ := passes_of_exec hexec hf'
    exact effect_out_length i s
  · rcases exec_cases i s with ⟨-, hs⟩ | ⟨code, -, hs⟩ | ⟨-, hacts, hs⟩
    · cases hexec.symm.trans hs
      rfl
    · cases hexec.symm.trans hs
      rfl
    · cases hexec.symm.trans hs
      cases hf : s.fault with
      | true => exact effect_out_of_actsInFaultState (hacts hf) s
      | false => simp [hf, effect_no_fault i hf] at hfault

end Sys2Proof.Machine
